-- ==== Sys2Proof/Word.lean ====
section
/-! DEFINITION. The words, the bus transaction (20_memory.md rule R70) and the names of the 37
registers (10_state.md rule R41). -/

namespace Sys2Proof

/-- A register or an address: 32 bits (00_scope.md rule R6, REG_BITS and ADDR_BITS). -/
abbrev Word := BitVec 32

/-- One priority field `IP[n]`, 8 bits (10_state.md rule R47). -/
abbrev Byte := BitVec 8

/-- A priority level 0..15, 4 bits (10_state.md rule R34). -/
abbrev Level := BitVec 4

/-- The levels of all 81 interrupt signals, bit `n` for signal `n`, 1 for HIGH
(60_exceptions.md rule R202). -/
abbrev Signals := BitVec 81

/-- `dir` of a transaction (rule R70): a read, or a write with its data.  A write of `size` bytes
carries the low `8*size` bits of `wdata`. -/
inductive Direction
  | read
  | write (wdata : Word)
deriving DecidableEq, Repr

/-- One bus transaction `T = (dir, addr, size, priv, wdata)` (rules R70 and R100).  `size` is any
number of bytes, so that sizes the registers do not support can be presented and refused. -/
structure Transaction where
  dir  : Direction
  addr : Word
  size : Nat
  priv : Bool
deriving DecidableEq, Repr

/-- What an operation keeps of its transaction beside the register and the data: the privilege, the
size in bytes, and the byte offset `addr[1:0]` in the register (rule R101). -/
structure Access where
  priv : Bool
  size : Nat
  lane : BitVec 2
deriving DecidableEq, Repr

/-- The 37 registers of the summary in 10_state.md rule R41. -/
inductive Register
  | iser0 | iser1 | iser2
  | icer0 | icer1 | icer2
  | ispr0 | ispr1 | ispr2
  | icpr0 | icpr1 | icpr2
  | iabr0 | iabr1 | iabr2
  | ipr0 | ipr1 | ipr2 | ipr3 | ipr4 | ipr5 | ipr6
  | ipr7 | ipr8 | ipr9 | ipr10 | ipr11 | ipr12 | ipr13
  | ipr14 | ipr15 | ipr16 | ipr17 | ipr18 | ipr19 | ipr20
  | stir
deriving DecidableEq, Repr

end Sys2Proof
end

