-- ==== Sys2Proof/Config.lean ====
section
/-! DEFINITION. What one implementation fixes, the source's constants, and the free value. -/

namespace Sys2Proof

/-- `MAX_IRQ`: "Up to 81 interrupts" (00_scope.md rule R6). -/
def maxIrq : Nat := 81

/-- `NVIC_BASE` (rule R6): the base address of the main register block. -/
def nvicBase : Word := 0xE000E100

/-- `STIR_ADDR` (rule R6): the separate block of NVIC_STIR. -/
def stirAddr : Word := 0xE000EF00

/-- What a device fixes: `NUM_IRQ`, 1..81 (rule R6, decision D1), kept as the number of the last
interrupt, so that no other value can be written.  The configuration rides in the state and no step
changes it: a statement about every state is then one about every device (assumption 1). -/
structure Config where
  lastIrq : Fin 81
deriving DecidableEq, Repr

/-- `NUM_IRQ`. -/
def Config.numIrq (c : Config) : Nat := c.lastIrq.val + 1

/-- The spec's default device, `NUM_IRQ = 81` (decision D1). -/
def Config.full : Config := ⟨80⟩

/-- FREE VALUE (assumption 3): what the `k`-th read of the write-only STIR returns
(44_software_trigger.md rule R166, decision D10).  It has no body: no
value of it can be proved.  That it takes the count of draws alone is the model's choice. -/
opaque Config.freeValue : Nat → Word

end Sys2Proof
end

