-- ==== Sys2Proof/Syntax.lean ====
section
/-! DEFINITION. The operations of 30_encoding.md rule R104: one constructor for each row of the
opcode table, that is for each register and direction. -/

namespace Sys2Proof

/-- `WR.<reg>` with its access and write data, `RD.<reg>` with its access (rule R104). -/
inductive Instr
  | wrIser0 (a : Access) (d : Word)
  | rdIser0 (a : Access)
  | wrIser1 (a : Access) (d : Word)
  | rdIser1 (a : Access)
  | wrIser2 (a : Access) (d : Word)
  | rdIser2 (a : Access)
  | wrIcer0 (a : Access) (d : Word)
  | rdIcer0 (a : Access)
  | wrIcer1 (a : Access) (d : Word)
  | rdIcer1 (a : Access)
  | wrIcer2 (a : Access) (d : Word)
  | rdIcer2 (a : Access)
  | wrIspr0 (a : Access) (d : Word)
  | rdIspr0 (a : Access)
  | wrIspr1 (a : Access) (d : Word)
  | rdIspr1 (a : Access)
  | wrIspr2 (a : Access) (d : Word)
  | rdIspr2 (a : Access)
  | wrIcpr0 (a : Access) (d : Word)
  | rdIcpr0 (a : Access)
  | wrIcpr1 (a : Access) (d : Word)
  | rdIcpr1 (a : Access)
  | wrIcpr2 (a : Access) (d : Word)
  | rdIcpr2 (a : Access)
  | wrIabr0 (a : Access) (d : Word)
  | rdIabr0 (a : Access)
  | wrIabr1 (a : Access) (d : Word)
  | rdIabr1 (a : Access)
  | wrIabr2 (a : Access) (d : Word)
  | rdIabr2 (a : Access)
  | wrIpr0 (a : Access) (d : Word)
  | rdIpr0 (a : Access)
  | wrIpr1 (a : Access) (d : Word)
  | rdIpr1 (a : Access)
  | wrIpr2 (a : Access) (d : Word)
  | rdIpr2 (a : Access)
  | wrIpr3 (a : Access) (d : Word)
  | rdIpr3 (a : Access)
  | wrIpr4 (a : Access) (d : Word)
  | rdIpr4 (a : Access)
  | wrIpr5 (a : Access) (d : Word)
  | rdIpr5 (a : Access)
  | wrIpr6 (a : Access) (d : Word)
  | rdIpr6 (a : Access)
  | wrIpr7 (a : Access) (d : Word)
  | rdIpr7 (a : Access)
  | wrIpr8 (a : Access) (d : Word)
  | rdIpr8 (a : Access)
  | wrIpr9 (a : Access) (d : Word)
  | rdIpr9 (a : Access)
  | wrIpr10 (a : Access) (d : Word)
  | rdIpr10 (a : Access)
  | wrIpr11 (a : Access) (d : Word)
  | rdIpr11 (a : Access)
  | wrIpr12 (a : Access) (d : Word)
  | rdIpr12 (a : Access)
  | wrIpr13 (a : Access) (d : Word)
  | rdIpr13 (a : Access)
  | wrIpr14 (a : Access) (d : Word)
  | rdIpr14 (a : Access)
  | wrIpr15 (a : Access) (d : Word)
  | rdIpr15 (a : Access)
  | wrIpr16 (a : Access) (d : Word)
  | rdIpr16 (a : Access)
  | wrIpr17 (a : Access) (d : Word)
  | rdIpr17 (a : Access)
  | wrIpr18 (a : Access) (d : Word)
  | rdIpr18 (a : Access)
  | wrIpr19 (a : Access) (d : Word)
  | rdIpr19 (a : Access)
  | wrIpr20 (a : Access) (d : Word)
  | rdIpr20 (a : Access)
  | wrStir (a : Access) (d : Word)
  | rdStir (a : Access)
deriving DecidableEq, Repr

/-- An operation as the fields of its transaction: register, access, write data if it is a write. -/
def Instr.parts : Instr → Register × Access × Option Word
  | .wrIser0 a d => (.iser0, a, some d)
  | .rdIser0 a => (.iser0, a, none)
  | .wrIser1 a d => (.iser1, a, some d)
  | .rdIser1 a => (.iser1, a, none)
  | .wrIser2 a d => (.iser2, a, some d)
  | .rdIser2 a => (.iser2, a, none)
  | .wrIcer0 a d => (.icer0, a, some d)
  | .rdIcer0 a => (.icer0, a, none)
  | .wrIcer1 a d => (.icer1, a, some d)
  | .rdIcer1 a => (.icer1, a, none)
  | .wrIcer2 a d => (.icer2, a, some d)
  | .rdIcer2 a => (.icer2, a, none)
  | .wrIspr0 a d => (.ispr0, a, some d)
  | .rdIspr0 a => (.ispr0, a, none)
  | .wrIspr1 a d => (.ispr1, a, some d)
  | .rdIspr1 a => (.ispr1, a, none)
  | .wrIspr2 a d => (.ispr2, a, some d)
  | .rdIspr2 a => (.ispr2, a, none)
  | .wrIcpr0 a d => (.icpr0, a, some d)
  | .rdIcpr0 a => (.icpr0, a, none)
  | .wrIcpr1 a d => (.icpr1, a, some d)
  | .rdIcpr1 a => (.icpr1, a, none)
  | .wrIcpr2 a d => (.icpr2, a, some d)
  | .rdIcpr2 a => (.icpr2, a, none)
  | .wrIabr0 a d => (.iabr0, a, some d)
  | .rdIabr0 a => (.iabr0, a, none)
  | .wrIabr1 a d => (.iabr1, a, some d)
  | .rdIabr1 a => (.iabr1, a, none)
  | .wrIabr2 a d => (.iabr2, a, some d)
  | .rdIabr2 a => (.iabr2, a, none)
  | .wrIpr0 a d => (.ipr0, a, some d)
  | .rdIpr0 a => (.ipr0, a, none)
  | .wrIpr1 a d => (.ipr1, a, some d)
  | .rdIpr1 a => (.ipr1, a, none)
  | .wrIpr2 a d => (.ipr2, a, some d)
  | .rdIpr2 a => (.ipr2, a, none)
  | .wrIpr3 a d => (.ipr3, a, some d)
  | .rdIpr3 a => (.ipr3, a, none)
  | .wrIpr4 a d => (.ipr4, a, some d)
  | .rdIpr4 a => (.ipr4, a, none)
  | .wrIpr5 a d => (.ipr5, a, some d)
  | .rdIpr5 a => (.ipr5, a, none)
  | .wrIpr6 a d => (.ipr6, a, some d)
  | .rdIpr6 a => (.ipr6, a, none)
  | .wrIpr7 a d => (.ipr7, a, some d)
  | .rdIpr7 a => (.ipr7, a, none)
  | .wrIpr8 a d => (.ipr8, a, some d)
  | .rdIpr8 a => (.ipr8, a, none)
  | .wrIpr9 a d => (.ipr9, a, some d)
  | .rdIpr9 a => (.ipr9, a, none)
  | .wrIpr10 a d => (.ipr10, a, some d)
  | .rdIpr10 a => (.ipr10, a, none)
  | .wrIpr11 a d => (.ipr11, a, some d)
  | .rdIpr11 a => (.ipr11, a, none)
  | .wrIpr12 a d => (.ipr12, a, some d)
  | .rdIpr12 a => (.ipr12, a, none)
  | .wrIpr13 a d => (.ipr13, a, some d)
  | .rdIpr13 a => (.ipr13, a, none)
  | .wrIpr14 a d => (.ipr14, a, some d)
  | .rdIpr14 a => (.ipr14, a, none)
  | .wrIpr15 a d => (.ipr15, a, some d)
  | .rdIpr15 a => (.ipr15, a, none)
  | .wrIpr16 a d => (.ipr16, a, some d)
  | .rdIpr16 a => (.ipr16, a, none)
  | .wrIpr17 a d => (.ipr17, a, some d)
  | .rdIpr17 a => (.ipr17, a, none)
  | .wrIpr18 a d => (.ipr18, a, some d)
  | .rdIpr18 a => (.ipr18, a, none)
  | .wrIpr19 a d => (.ipr19, a, some d)
  | .rdIpr19 a => (.ipr19, a, none)
  | .wrIpr20 a d => (.ipr20, a, some d)
  | .rdIpr20 a => (.ipr20, a, none)
  | .wrStir a d => (.stir, a, some d)
  | .rdStir a => (.stir, a, none)

/-- The register an operation accesses. -/
def Instr.register (i : Instr) : Register := i.parts.1

/-- The privilege, size and byte offset of an operation. -/
def Instr.access (i : Instr) : Access := i.parts.2.1

/-- The write data of an operation, absent for a read. -/
def Instr.writeData (i : Instr) : Option Word := i.parts.2.2

end Sys2Proof
end

