-- ==== Sys2Proof/WellFormed.lean ====
section
/-! DEFINITION. Which operations have the form that 30_encoding.md rule R100 gives them.  A
transaction that lies inside a register and has another form still decodes to that register's
operation (rule R101, conflict C19), whose meaning answers it by the checks in order. -/

namespace Sys2Proof

/-- The registers that are "byte-accessible" (20_memory.md rule R73): IPR0 to IPR20. -/
def Register.byteAccessible : Register → Bool
  | .ipr0 | .ipr1 | .ipr2 | .ipr3 | .ipr4 | .ipr5 | .ipr6 | .ipr7 | .ipr8 | .ipr9
  | .ipr10 | .ipr11 | .ipr12 | .ipr13 | .ipr14 | .ipr15 | .ipr16 | .ipr17 | .ipr18
  | .ipr19 | .ipr20 => true
  | .iser0 | .iser1 | .iser2 | .icer0 | .icer1 | .icer2 | .ispr0 | .ispr1 | .ispr2
  | .icpr0 | .icpr1 | .icpr2 | .iabr0 | .iabr1 | .iabr2 | .stir => false

/-- Formats MMIO_R32 and MMIO_W32: four bytes at the register's own address. -/
def Access.isWord (a : Access) : Bool := a.size == 4 && a.lane == 0

/-- Formats MMIO_R8_16_32 and MMIO_W8_16_32: 1, 2 or 4 bytes, `addr MOD size = 0`. -/
def Access.isLanes (a : Access) : Bool :=
  (a.size == 1 || a.size == 2 || a.size == 4) && a.lane.toNat % a.size == 0

/-- The size and alignment are those of the register's format (rules R72, R73, R100). -/
def Instr.formatOk (i : Instr) : Bool :=
  match i.register.byteAccessible with
  | true => i.access.isLanes
  | false => i.access.isWord

/-- The write data has no bit outside its `8*size` bits (rule R70). -/
def Instr.dataFits (i : Instr) : Bool :=
  match i.writeData with
  | none => true
  | some d => decide (d.toNat < 2 ^ (8 * min i.access.size 4))

/-- "Bits 31:9 Reserved, must be kept cleared" in a write to STIR (rules R48 and R105). -/
def Instr.reservedClear (i : Instr) : Bool :=
  match i.register, i.writeData with
  | .stir, some d => decide (d.toNat < 2 ^ 9)
  | _, _ => true

/-- The operation has one of the formats of rule R100. -/
def Instr.wellFormed (i : Instr) : Bool := i.formatOk && i.dataFits && i.reservedClear

end Sys2Proof
end

