-- ==== Sys2Proof/Decode.lean ====
section
/-! DEFINITION. The decoder of 30_encoding.md rule R101, the encoder, and the numbering of a
transaction's fields as the bits of one number (assumption 4). -/

namespace Sys2Proof

/-! ## Addresses -/

/-- The address of each register (10_state.md rule R41; conflicts C1 to C4, C7). -/
def Register.base : Register → Word
  | .iser0 => 0xE000E100
  | .iser1 => 0xE000E104
  | .iser2 => 0xE000E108
  | .icer0 => 0xE000E180
  | .icer1 => 0xE000E184
  | .icer2 => 0xE000E188
  | .ispr0 => 0xE000E200
  | .ispr1 => 0xE000E204
  | .ispr2 => 0xE000E208
  | .icpr0 => 0xE000E280
  | .icpr1 => 0xE000E284
  | .icpr2 => 0xE000E288
  | .iabr0 => 0xE000E300
  | .iabr1 => 0xE000E304
  | .iabr2 => 0xE000E308
  | .ipr0 => 0xE000E400
  | .ipr1 => 0xE000E404
  | .ipr2 => 0xE000E408
  | .ipr3 => 0xE000E40C
  | .ipr4 => 0xE000E410
  | .ipr5 => 0xE000E414
  | .ipr6 => 0xE000E418
  | .ipr7 => 0xE000E41C
  | .ipr8 => 0xE000E420
  | .ipr9 => 0xE000E424
  | .ipr10 => 0xE000E428
  | .ipr11 => 0xE000E42C
  | .ipr12 => 0xE000E430
  | .ipr13 => 0xE000E434
  | .ipr14 => 0xE000E438
  | .ipr15 => 0xE000E43C
  | .ipr16 => 0xE000E440
  | .ipr17 => 0xE000E444
  | .ipr18 => 0xE000E448
  | .ipr19 => 0xE000E44C
  | .ipr20 => 0xE000E450
  | .stir => 0xE000EF00

/-- The registers in the order of rule R101's table. -/
def registers : List Register :=
  [.iser0, .iser1, .iser2, .icer0, .icer1, .icer2, .ispr0, .ispr1, .ispr2, .icpr0, .icpr1, .icpr2,
   .iabr0, .iabr1, .iabr2,
   .ipr0, .ipr1, .ipr2, .ipr3, .ipr4, .ipr5, .ipr6, .ipr7, .ipr8, .ipr9, .ipr10,
   .ipr11, .ipr12, .ipr13, .ipr14, .ipr15, .ipr16, .ipr17, .ipr18, .ipr19, .ipr20,
   .stir]

/-- `addr AND 0xFFFFFFFC = match`: the address lies in the register's four bytes (rule R101, steps
1 and 2). -/
def Register.owns (r : Register) (addr : Word) : Bool := addr &&& 0xFFFFFFFC == r.base

/-- The register an address lies in, if any. -/
def registerAt (addr : Word) : Option Register := registers.find? (·.owns addr)

/-- The address lies in the main block 0xE000E100 to 0xE000E453 (20_memory.md rules R76, R77). -/
def inMainBlock (addr : Word) : Bool :=
  decide (0xE000E100 ≤ addr.toNat) && decide (addr.toNat ≤ 0xE000E453)

/-- Why an address decodes to no operation. -/
inductive DecodeError
  /-- inside the main block, in no register (rule R77) -/
  | hole (addr : Word)
  /-- not an NVIC address (rules R50, R76) -/
  | outside (addr : Word)
deriving DecidableEq, Repr

/-! ## Operations from a register and a direction (rule R104) -/

/-- `RD.<reg>`. -/
def Instr.read : Register → Access → Instr
  | .iser0, a => .rdIser0 a
  | .iser1, a => .rdIser1 a
  | .iser2, a => .rdIser2 a
  | .icer0, a => .rdIcer0 a
  | .icer1, a => .rdIcer1 a
  | .icer2, a => .rdIcer2 a
  | .ispr0, a => .rdIspr0 a
  | .ispr1, a => .rdIspr1 a
  | .ispr2, a => .rdIspr2 a
  | .icpr0, a => .rdIcpr0 a
  | .icpr1, a => .rdIcpr1 a
  | .icpr2, a => .rdIcpr2 a
  | .iabr0, a => .rdIabr0 a
  | .iabr1, a => .rdIabr1 a
  | .iabr2, a => .rdIabr2 a
  | .ipr0, a => .rdIpr0 a
  | .ipr1, a => .rdIpr1 a
  | .ipr2, a => .rdIpr2 a
  | .ipr3, a => .rdIpr3 a
  | .ipr4, a => .rdIpr4 a
  | .ipr5, a => .rdIpr5 a
  | .ipr6, a => .rdIpr6 a
  | .ipr7, a => .rdIpr7 a
  | .ipr8, a => .rdIpr8 a
  | .ipr9, a => .rdIpr9 a
  | .ipr10, a => .rdIpr10 a
  | .ipr11, a => .rdIpr11 a
  | .ipr12, a => .rdIpr12 a
  | .ipr13, a => .rdIpr13 a
  | .ipr14, a => .rdIpr14 a
  | .ipr15, a => .rdIpr15 a
  | .ipr16, a => .rdIpr16 a
  | .ipr17, a => .rdIpr17 a
  | .ipr18, a => .rdIpr18 a
  | .ipr19, a => .rdIpr19 a
  | .ipr20, a => .rdIpr20 a
  | .stir, a => .rdStir a

/-- `WR.<reg>`. -/
def Instr.write : Register → Access → Word → Instr
  | .iser0, a, d => .wrIser0 a d
  | .iser1, a, d => .wrIser1 a d
  | .iser2, a, d => .wrIser2 a d
  | .icer0, a, d => .wrIcer0 a d
  | .icer1, a, d => .wrIcer1 a d
  | .icer2, a, d => .wrIcer2 a d
  | .ispr0, a, d => .wrIspr0 a d
  | .ispr1, a, d => .wrIspr1 a d
  | .ispr2, a, d => .wrIspr2 a d
  | .icpr0, a, d => .wrIcpr0 a d
  | .icpr1, a, d => .wrIcpr1 a d
  | .icpr2, a, d => .wrIcpr2 a d
  | .iabr0, a, d => .wrIabr0 a d
  | .iabr1, a, d => .wrIabr1 a d
  | .iabr2, a, d => .wrIabr2 a d
  | .ipr0, a, d => .wrIpr0 a d
  | .ipr1, a, d => .wrIpr1 a d
  | .ipr2, a, d => .wrIpr2 a d
  | .ipr3, a, d => .wrIpr3 a d
  | .ipr4, a, d => .wrIpr4 a d
  | .ipr5, a, d => .wrIpr5 a d
  | .ipr6, a, d => .wrIpr6 a d
  | .ipr7, a, d => .wrIpr7 a d
  | .ipr8, a, d => .wrIpr8 a d
  | .ipr9, a, d => .wrIpr9 a d
  | .ipr10, a, d => .wrIpr10 a d
  | .ipr11, a, d => .wrIpr11 a d
  | .ipr12, a, d => .wrIpr12 a d
  | .ipr13, a, d => .wrIpr13 a d
  | .ipr14, a, d => .wrIpr14 a d
  | .ipr15, a, d => .wrIpr15 a d
  | .ipr16, a, d => .wrIpr16 a d
  | .ipr17, a, d => .wrIpr17 a d
  | .ipr18, a, d => .wrIpr18 a d
  | .ipr19, a, d => .wrIpr19 a d
  | .ipr20, a, d => .wrIpr20 a d
  | .stir, a, d => .wrStir a d

/-! ## Decoder and encoder -/

/-- The `8*size` bits of write data a transaction of `size` bytes carries (rule R70). -/
def carried (size : Nat) (d : Word) : Word :=
  match size with
  | 0 => 0
  | 1 => d &&& 0xFF
  | 2 => d &&& 0xFFFF
  | 3 => d &&& 0xFFFFFF
  | _ => d

/-- The access part of a transaction; `lane` is `addr[1:0]`. -/
def Transaction.access (t : Transaction) : Access :=
  ⟨t.priv, t.size, t.addr.extractLsb' 0 2⟩

/-- Rule R101, steps 1 and 2: find the register.  Steps 3 to 5 are the operation's meaning.
Total: an address in no register is rejected by name. -/
def decode (t : Transaction) : Except DecodeError Instr :=
  match registerAt t.addr with
  | none => .error (if inMainBlock t.addr then .hole t.addr else .outside t.addr)
  | some r =>
    match t.dir with
    | .read => .ok (Instr.read r t.access)
    | .write d => .ok (Instr.write r t.access (carried t.size d))

/-- The transaction that carries an operation: its address is the register's plus the byte
offset (rules R100, R104). -/
def encode (i : Instr) : Transaction where
  dir := match i.writeData with
    | none => .read
    | some d => .write d
  addr := i.register.base + i.access.lane.setWidth 32
  size := i.access.size
  priv := i.access.priv

/-! ## A transaction as one number

The spec gives no bit pattern beside the address (rule R100: the tuple is its own abstraction), and
the opcode table numbers the address's 32 bits only.  Above them the model numbers (assumption 4):
bits 63:32 `wdata`; bit 64 `dir`, 0 for a write and 1 for a read; bit 65 set for an unprivileged
access; bits 67:66 the size: 0 four bytes, 1 one byte, 2 two bytes, 3 a size no register supports. -/

/-- The size of code 0..3. -/
def sizeOfCode : Nat → Nat
  | 0 => 4
  | 1 => 1
  | 2 => 2
  | _ => 8

/-- The code of a size. -/
def codeOfSize : Nat → Nat
  | 4 => 0
  | 1 => 1
  | 2 => 2
  | _ => 3

/-- The transaction whose fields are the bits of `w`. -/
def Transaction.ofBits (w : Nat) : Transaction where
  dir := if w.testBit 64 then .read else .write (BitVec.ofNat 32 (w / 2 ^ 32))
  addr := BitVec.ofNat 32 w
  size := sizeOfCode (w / 2 ^ 66 % 4)
  priv := !w.testBit 65

/-- The bits of a transaction. -/
def Transaction.toBits (t : Transaction) : Nat :=
  let dataAndDir := match t.dir with
    | .write d => d.toNat
    | .read => 2 ^ 32
  t.addr.toNat + 2 ^ 32 * dataAndDir
    + 2 ^ 65 * (if t.priv then 0 else 1) + 2 ^ 66 * codeOfSize t.size

/-- The operation the decoder reads from a table word: `nbits` bits of `w`, zeros above. -/
def decodeTableWord (nbits w : Nat) : Option Instr :=
  match decode (Transaction.ofBits (w % 2 ^ nbits)) with
  | .ok i => some i
  | .error _ => none

end Sys2Proof
end

