-- ==== Sys2Proof/Machine/State.lean ====
section
/-! DEFINITION. The state of the NVIC (10_state.md rule R30), the inputs its environment supplies
(rule R37), the script of steps that environment delivers, the answer of the bus, and the reasons a
step can stop. -/

namespace Sys2Proof.Machine

/-- The five components of one interrupt (10_state.md rules R30 to R35). -/
structure Irq where
  /-- `EN[n]`, enabled (rule R31) -/
  en   : Bool
  /-- `PEND[n]`, pending (rule R32) -/
  pend : Bool
  /-- `ACT[n]`, active (rule R33) -/
  act  : Bool
  /-- `PRI[n]`, the priority level, 0 the highest (rule R34) -/
  pri  : Level
  /-- `LINE[n]`, the signal's level at the last sample (rule R35) -/
  line : Bool
deriving DecidableEq, Repr

/-- Disabled, inactive, level 0, no signal remembered as HIGH (rule R49). -/
def Irq.reset : Irq := ⟨false, false, false, 0, false⟩

/-- The inputs that stand for registers and masks of the processor (rules R6 and R37).  They are not
NVIC state: only their own inputs change them. -/
structure Env where
  /-- `USERSETMPEND` of the SCR (44_software_trigger.md rule R167) -/
  userSetMPend : Bool
  /-- `PRIGROUP`, 0..7 (60_exceptions.md rule R206) -/
  priGroup     : BitVec 3
  /-- interrupts disabled by `CPSID I` (45_cmsis_functions.md rules R186, R187) -/
  intDisabled  : Bool
  /-- the processor's other masking: the group priorities below this are accepted.  A bound says
  every monotone predicate on the 16 group priorities (60_exceptions.md rule R213, assumption 6) -/
  acceptBelow  : Fin 17
  /-- the level of the external NMI, passed to the core (rule R214, assumption 7) -/
  nmi          : Bool
deriving DecidableEq, Repr

/-- What the last bus transaction was answered with (00_scope.md rule R10). -/
inductive Answer
  /-- a write with the outcome `Ok` -/
  | done
  /-- a read with the outcome `Ok`: `8*size` bits of data, zero above -/
  | data (size : Nat) (value : Word)
  /-- the outcome `AccessFault`: no value, and the issuer is told (60_exceptions.md rule R217) -/
  | accessFault
deriving DecidableEq, Repr

/-- One step's cause (30_encoding.md rule R107, 10_state.md rule R37). -/
inductive Input
  /-- a load or store of the processor that reaches the NVIC (20_memory.md rule R70) -/
  | bus (t : Transaction)
  /-- an instruction fetch from an NVIC address (20_memory.md rule R82) -/
  | fetch (addr : Word)
  /-- `Sample(irq_in)` (60_exceptions.md rule R202) -/
  | sample (irqIn : Signals)
  /-- `Entry(n)` (rule R208) -/
  | entry (n : Nat)
  /-- `Return(n, level)` (rule R209) -/
  | ret (n : Nat) (level : Bool)
  /-- `Reset` (70_reset_and_hazards.md rule R250) -/
  | reset
  /-- software of the given privilege writes `USERSETMPEND` (44_software_trigger.md rule R167) -/
  | setUserSetMPend (priv value : Bool)
  /-- the priority grouping is set (45_cmsis_functions.md rule R184) -/
  | setPriGroup (g : BitVec 3)
  /-- the processor's other masking changes (60_exceptions.md rule R213) -/
  | setAcceptBelow (bound : Fin 17)
  /-- `CPSID I` (45_cmsis_functions.md rule R186) -/
  | cpsid
  /-- `CPSIE I` (rule R187) -/
  | cpsie
  /-- the level of the external NMI changes (60_exceptions.md rule R214) -/
  | nmi (level : Bool)
deriving DecidableEq, Repr

/-- The machine.  `irqs` has a place for each of the 81 possible interrupts; a place at or above
`NUM_IRQ` belongs to no interrupt (10_state.md rule R51). -/
structure State where
  /-- the device: `NUM_IRQ` (fixed) -/
  cfg     : Config
  /-- the NVIC's whole state (rule R30) -/
  irqs    : Vector Irq 81
  /-- the present inputs of the environment (rule R37) -/
  env     : Env
  /-- the answer of the last bus transaction; none before the first -/
  answer  : Option Answer
  /-- the model's own: how many free values have been drawn (assumption 3) -/
  freeCtr : Nat
  /-- the model's own: the steps the environment has yet to deliver, first one first
  (20_memory.md rule R79, assumption 5) -/
  inputs  : List Input
deriving DecidableEq, Repr

/-- Why the machine stops: the environment delivered an event that is not enabled, so the step does
not exist (93_implementation_defined.md U22).  No behaviour of the hardware itself stops it. -/
inductive Fault
  /-- `Entry(n)` while `may_enter(n)` is false (60_exceptions.md rule R208).  Raised by the entry
  event.  Safe: the hardware has no such run. -/
  | entryNotEnabled (n : Nat)
  /-- `Return(n, level)` while `ACT[n] = 0` (rule R209).  Raised by the return event.  Safe: the
  hardware has no such run. -/
  | returnNotEnabled (n : Nat)
deriving DecidableEq, Repr

/-- Why a step has no meaning: the outcome `Unsupported` of 00_scope.md rule R10, by its cause. -/
inductive Refusal
  /-- an instruction without a meaning yet.  Raised by no arm now.  Safe. -/
  | notModelled (mnemonic : String)
  /-- an access inside the main block that lies in no register (20_memory.md rule R77).  Raised when
  a transaction is decoded.  Safe. -/
  | hole (addr : Word)
  /-- an access that is not the NVIC's (rules R50, R76).  Raised when a transaction is decoded.
  Safe. -/
  | outsideNvic (addr : Word)
  /-- a size the register does not support (rule R73).  Raised by every operation.  Safe. -/
  | unsupportedSize (size : Nat)
  /-- `addr MOD size` is not 0 (rule R72).  Raised by every operation.  Safe. -/
  | unaligned (size : Nat) (lane : BitVec 2)
  /-- a write to STIR with a bit of 31:9 set (44_software_trigger.md rule R165).  Raised by
  `WR.STIR`.  Safe. -/
  | reservedStirBits (wdata : Word)
  /-- an instruction fetch from an NVIC address (20_memory.md rule R82).  Raised by the fetch input.
  Safe. -/
  | instructionFetch (addr : Word)
deriving DecidableEq, Repr

/-- The inputs as reset leaves the model: no unprivileged STIR, no subpriority, nothing masked, NMI
low (assumption 2). -/
def Env.reset : Env := ⟨false, 0, false, 16, false⟩

/-- The state right after reset (rules R49 and R250), on the default device. -/
def State.reset : State where
  cfg := Config.full
  irqs := Vector.replicate 81 Irq.reset
  env := Env.reset
  answer := none
  freeCtr := 0
  inputs := []

end Sys2Proof.Machine
end

