-- ==== Sys2Proof/Machine/Flags.lean ====
section
/-! DEFINITION. The status bits `EN`, `PEND`, `ACT`, `LINE` of one interrupt: what each operation
and each event does to them, and the four named states.  The NVIC has no other flags
(10_state.md rule R40). -/

namespace Sys2Proof.Machine

/-- The four named states of an interrupt (10_state.md rule R36). -/
inductive Status
  | inactive | pending | active | activeAndPending
deriving DecidableEq, Repr

/-- The state named by the pair (`PEND`, `ACT`) (rule R36). -/
def Irq.status (q : Irq) : Status :=
  match q.pend, q.act with
  | false, false => .inactive
  | true, false => .pending
  | false, true => .active
  | true, true => .activeAndPending

/-- `EN[n] <- 1` (40_enable_registers.md rule R130). -/
def Irq.enabled (q : Irq) : Irq := { q with en := true }

/-- `EN[n] <- 0` (rule R132). -/
def Irq.disabled (q : Irq) : Irq := { q with en := false }

/-- `PEND[n] <- 1` (41_pending_registers.md rule R140, 44_software_trigger.md rule R165). -/
def Irq.pended (q : Irq) : Irq := { q with pend := true }

/-- The clear-pending write: no change while the signal is asserted, else `PEND[n] <- 0`
(rule R142, decision D17, conflict C11). -/
def Irq.unpended (q : Irq) : Irq :=
  match q.line with
  | true => q
  | false => { q with pend := false }

/-- One sample of the interrupt's signal: a rising edge, or a HIGH level while the interrupt is not
active, makes it pending; the level is remembered (60_exceptions.md rule R202). -/
def Irq.sampled (new : Bool) (q : Irq) : Irq :=
  let rising := new && !q.line
  { q with pend := q.pend || rising || (new && !q.act), line := new }

/-- The processor enters the ISR: pending becomes active (rule R208). -/
def Irq.entered (q : Irq) : Irq := { q with pend := false, act := true }

/-- The processor returns from the ISR and the signal is sampled (rule R209, decision D27). -/
def Irq.returned (level : Bool) (q : Irq) : Irq :=
  { q with act := false, pend := q.pend || level, line := level }

/-- `PRI[n] <- p` (43_priority_registers.md rule R155). -/
def Irq.reprioritized (p : Level) (q : Irq) : Irq := { q with pri := p }

end Sys2Proof.Machine
end

