-- ==== Sys2Proof/Machine/Ops.lean ====
section
/-! DEFINITION. The named operations on the state: reading and updating the interrupts, answering
the bus, drawing a free value, taking the next input, and the two halves of interrupt handling on
the NVIC's side, entry and return. -/

namespace Sys2Proof.Machine

/-- `implemented(n)`: `n < NUM_IRQ` (00_scope.md rule R9). -/
def State.implemented (s : State) (n : Nat) : Bool := decide (n < s.cfg.numIrq)

/-- The components of interrupt `n`. -/
def State.irq (s : State) (n : Nat) : Irq := s.irqs[n]?.getD Irq.reset

/-- Update every implemented interrupt at once, each from its own components (00_scope.md rule R9:
all assignments of a rule happen together).  A place that belongs to no interrupt keeps its value
(10_state.md rule R51). -/
def State.mapIrqs (s : State) (f : Nat → Irq → Irq) : State :=
  { s with irqs := s.irqs.mapIdx fun n q => if s.implemented n then f n q else q }

/-- Update interrupt `n` alone. -/
def State.updateIrq (s : State) (n : Nat) (f : Irq → Irq) : State :=
  s.mapIrqs fun m q => if m = n then f q else q

/-- Answer the transaction in progress (00_scope.md rule R10). -/
def State.respond (s : State) (a : Answer) : State := { s with answer := some a }

/-- Draw the next free value.  DESIGN CHOICE: it depends on the count of draws alone and not on the
interrupts; the spec leaves open whether it may (44_software_trigger.md rule R166, decision D10,
assumption 3). -/
def State.freeValue (s : State) : Word := Config.freeValue s.freeCtr

/-- Count a drawn free value. -/
def State.drawn (s : State) : State := { s with freeCtr := s.freeCtr + 1 }

/-- Take the input that the environment delivers next (20_memory.md rule R79). -/
def State.takeInput (s : State) : Option (Input × State) :=
  match s.inputs with
  | [] => none
  | e :: rest => some (e, { s with inputs := rest })

/-- Exception entry on the NVIC's side: exactly `PEND[n]` and `ACT[n]` change
(60_exceptions.md rules R208, R216). -/
def State.enterIsr (s : State) (n : Nat) : State := s.updateIrq n Irq.entered

/-- Exception return on the NVIC's side: exactly `ACT[n]`, `PEND[n]` and `LINE[n]` change
(rules R209, R216). -/
def State.returnFromIsr (s : State) (n : Nat) (level : Bool) : State :=
  s.updateIrq n (Irq.returned level)

/-- All signals are sampled at once (rule R202). -/
def State.sampleSignals (s : State) (irqIn : Signals) : State :=
  s.mapIrqs fun n => Irq.sampled (irqIn.getLsbD n)

/-- `Reset`: every component of every interrupt to zero; the inputs keep their values
(70_reset_and_hazards.md rule R250). -/
def State.resetIrqs (s : State) : State := s.mapIrqs fun _ _ => Irq.reset

end Sys2Proof.Machine
end

