-- ==== Sys2Proof/Machine/Operands.lean ====
section
/-! DEFINITION. The checks of an access in their order, and how each register shows and takes its
operand (30_encoding.md rules R101 to R106). -/

namespace Sys2Proof.Machine

/-! ## Checks -/

/-- Size and alignment of every register but IPR: four bytes at the register's own address
(20_memory.md rules R72, R73).  Answers what is wrong, if anything. -/
def wordFormat (a : Access) : Option Refusal :=
  if a.size = 4 then
    if a.lane = 0 then none else some (.unaligned a.size a.lane)
  else some (.unsupportedSize a.size)

/-- Size and alignment of IPR: 1, 2 or 4 bytes, `addr MOD size = 0`
(43_priority_registers.md rule R159). -/
def lanesFormat (a : Access) : Option Refusal :=
  if a.size = 1 ∨ a.size = 2 ∨ a.size = 4 then
    if a.lane.toNat % a.size = 0 then none else some (.unaligned a.size a.lane)
  else some (.unsupportedSize a.size)

/-- The checks in the order of rule R101: privilege first, with the outcome `AccessFault` and
nothing changed; then size and alignment, with the outcome `Unsupported`; then the operation. -/
def checked (permitted : Bool) (format : Option Refusal) (s : State)
    (run : Host.Outcome State Fault Refusal) : Host.Outcome State Fault Refusal :=
  match permitted, format with
  | false, _ => .next (s.respond .accessFault)
  | true, some r => .refused r
  | true, none => run

/-- The privilege check of STIR (44_software_trigger.md rule R167). -/
def stirPermitted (a : Access) (s : State) : Bool := a.priv || s.env.userSetMPend

/-! ## Registers with one bit for each interrupt (rule R102) -/

/-- Interrupt `n` is bit `n MOD 32` of register `n DIV 32`; the write data selects it. -/
def selected (k : Nat) (d : Word) (n : Nat) : Bool :=
  decide (n / 32 = k) && d.getLsbD (n % 32)

/-- The value of register `k`: bit `i` shows interrupt `32k + i`, and 0 where there is none
(rules R131, R141, R150; 10_state.md rule R51). -/
def bitsValue (k : Nat) (show1 : Irq → Bool) (s : State) : Word :=
  BitVec.ofFnLE fun i : Fin 32 => s.implemented (32 * k + i) && show1 (s.irq (32 * k + i))

/-- A privileged four-byte write that updates the interrupts whose bit is 1. -/
def writeBits (k : Nat) (f : Irq → Irq) (a : Access) (d : Word) (s : State) :
    Host.Outcome State Fault Refusal :=
  checked a.priv (wordFormat a) s
    (.next ((s.mapIrqs fun n q => if selected k d n then f q else q).respond .done))

/-- A privileged four-byte read of one bit of each interrupt; nothing else changes
(20_memory.md rule R75). -/
def readBits (k : Nat) (show1 : Irq → Bool) (a : Access) (s : State) :
    Host.Outcome State Fault Refusal :=
  checked a.priv (wordFormat a) s (.next (s.respond (.data 4 (bitsValue k show1 s))))

/-! ## Priority registers (rule R103) -/

/-- The first interrupt of an access to register `m`: `n0 = 4m + addr[1:0]`. -/
def firstField (m : Nat) (a : Access) : Nat := 4 * m + a.lane.toNat

/-- The field `IP[n]` as software reads it: `PRI[n] ++ 0b0000`, and 0 where there is no interrupt
(43_priority_registers.md rule R156). -/
def fieldValue (s : State) (n : Nat) : Byte :=
  if s.implemented n then (s.irq n).pri ++ 0#4 else 0

/-- Byte `j` of an access of `size` bytes at field `n0`; 0 above the access. -/
def laneValue (s : State) (n0 size j : Nat) : Byte :=
  if j < size then fieldValue s (n0 + j) else 0

/-- The bytes of an access, the lowest address in the least significant byte
(20_memory.md rule R71). -/
def fieldsValue (s : State) (n0 size : Nat) : Word :=
  laneValue s n0 size 3 ++ laneValue s n0 size 2 ++ laneValue s n0 size 1 ++ laneValue s n0 size 0

/-- The level that byte `j` of the write data stores: bits[7:4] of the field (rule R155). -/
def levelOf (d : Word) (j : Nat) : Level := d.extractLsb' (8 * j + 4) 4

/-- A write of `size` bytes at field `n0` stores byte `n - n0` into `PRI[n]`. -/
def writeFields (n0 size : Nat) (d : Word) (n : Nat) (q : Irq) : Irq :=
  if n0 ≤ n ∧ n < n0 + size then q.reprioritized (levelOf d (n - n0)) else q

/-- `WR.IPRm` (rule R155). -/
def writePriority (m : Nat) (a : Access) (d : Word) (s : State) :
    Host.Outcome State Fault Refusal :=
  checked a.priv (lanesFormat a) s
    (.next ((s.mapIrqs (writeFields (firstField m a) a.size d)).respond .done))

/-- `RD.IPRm` (rule R156). -/
def readPriority (m : Nat) (a : Access) (s : State) : Host.Outcome State Fault Refusal :=
  checked a.priv (lanesFormat a) s
    (.next (s.respond (.data a.size (fieldsValue s (firstField m a) a.size))))

/-! ## STIR (rule R105) -/

/-- `INTID = wdata[8:0]`. -/
def intId (d : Word) : Nat := (d.extractLsb' 0 9).toNat

/-- `wdata[31:9] = 0`. -/
def stirReservedClear (d : Word) : Bool := d.extractLsb' 9 23 == 0

end Sys2Proof.Machine
end

