-- ==== Sys2Proof/Machine/Active.lean ====
section
/-! DEFINITION. The active bit registers (42_active_registers.md).  A write is accepted and
ignored (rule R151, decision D11). -/

namespace Sys2Proof.Machine

/-- A privileged four-byte write to a read-only register: `Ok`, no state changes, whatever the data
(rule R151). -/
def ignoredWrite (a : Access) (_d : Word) (s : State) : Host.Outcome State Fault Refusal :=
  checked a.priv (wordFormat a) s (.next (s.respond .done))

/-- `WR.IABR0` (R151). -/
def execWrIabr0 (a : Access) (d : Word) (s : State) : Host.Outcome State Fault Refusal :=
  ignoredWrite a d s

/-- `RD.IABR0` (R150). -/
def execRdIabr0 (a : Access) (s : State) : Host.Outcome State Fault Refusal :=
  readBits 0 Irq.act a s

/-- `WR.IABR1` (R151). -/
def execWrIabr1 (a : Access) (d : Word) (s : State) : Host.Outcome State Fault Refusal :=
  ignoredWrite a d s

/-- `RD.IABR1` (R150). -/
def execRdIabr1 (a : Access) (s : State) : Host.Outcome State Fault Refusal :=
  readBits 1 Irq.act a s

/-- `WR.IABR2` (R151). -/
def execWrIabr2 (a : Access) (d : Word) (s : State) : Host.Outcome State Fault Refusal :=
  ignoredWrite a d s

/-- `RD.IABR2` (R150). -/
def execRdIabr2 (a : Access) (s : State) : Host.Outcome State Fault Refusal :=
  readBits 2 Irq.act a s

end Sys2Proof.Machine
end

