-- ==== Sys2Proof/Machine/Enable.lean ====
section
/-! DEFINITION. The set-enable and clear-enable registers (40_enable_registers.md). -/

namespace Sys2Proof.Machine

/-- `WR.ISER0` (R130). -/
def execWrIser0 (a : Access) (d : Word) (s : State) : Host.Outcome State Fault Refusal :=
  writeBits 0 Irq.enabled a d s

/-- `RD.ISER0` (R131). -/
def execRdIser0 (a : Access) (s : State) : Host.Outcome State Fault Refusal :=
  readBits 0 Irq.en a s

/-- `WR.ISER1` (R130). -/
def execWrIser1 (a : Access) (d : Word) (s : State) : Host.Outcome State Fault Refusal :=
  writeBits 1 Irq.enabled a d s

/-- `RD.ISER1` (R131). -/
def execRdIser1 (a : Access) (s : State) : Host.Outcome State Fault Refusal :=
  readBits 1 Irq.en a s

/-- `WR.ISER2` (R130). -/
def execWrIser2 (a : Access) (d : Word) (s : State) : Host.Outcome State Fault Refusal :=
  writeBits 2 Irq.enabled a d s

/-- `RD.ISER2` (R131). -/
def execRdIser2 (a : Access) (s : State) : Host.Outcome State Fault Refusal :=
  readBits 2 Irq.en a s

/-- `WR.ICER0` (R132). -/
def execWrIcer0 (a : Access) (d : Word) (s : State) : Host.Outcome State Fault Refusal :=
  writeBits 0 Irq.disabled a d s

/-- `RD.ICER0` (R133). -/
def execRdIcer0 (a : Access) (s : State) : Host.Outcome State Fault Refusal :=
  readBits 0 Irq.en a s

/-- `WR.ICER1` (R132). -/
def execWrIcer1 (a : Access) (d : Word) (s : State) : Host.Outcome State Fault Refusal :=
  writeBits 1 Irq.disabled a d s

/-- `RD.ICER1` (R133). -/
def execRdIcer1 (a : Access) (s : State) : Host.Outcome State Fault Refusal :=
  readBits 1 Irq.en a s

/-- `WR.ICER2` (R132). -/
def execWrIcer2 (a : Access) (d : Word) (s : State) : Host.Outcome State Fault Refusal :=
  writeBits 2 Irq.disabled a d s

/-- `RD.ICER2` (R133). -/
def execRdIcer2 (a : Access) (s : State) : Host.Outcome State Fault Refusal :=
  readBits 2 Irq.en a s

end Sys2Proof.Machine
end

