-- ==== Sys2Proof/Machine/Pending.lean ====
section
/-! DEFINITION. The set-pending and clear-pending registers (41_pending_registers.md). -/

namespace Sys2Proof.Machine

/-- `WR.ISPR0` (R140). -/
def execWrIspr0 (a : Access) (d : Word) (s : State) : Host.Outcome State Fault Refusal :=
  writeBits 0 Irq.pended a d s

/-- `RD.ISPR0` (R141). -/
def execRdIspr0 (a : Access) (s : State) : Host.Outcome State Fault Refusal :=
  readBits 0 Irq.pend a s

/-- `WR.ISPR1` (R140). -/
def execWrIspr1 (a : Access) (d : Word) (s : State) : Host.Outcome State Fault Refusal :=
  writeBits 1 Irq.pended a d s

/-- `RD.ISPR1` (R141). -/
def execRdIspr1 (a : Access) (s : State) : Host.Outcome State Fault Refusal :=
  readBits 1 Irq.pend a s

/-- `WR.ISPR2` (R140). -/
def execWrIspr2 (a : Access) (d : Word) (s : State) : Host.Outcome State Fault Refusal :=
  writeBits 2 Irq.pended a d s

/-- `RD.ISPR2` (R141). -/
def execRdIspr2 (a : Access) (s : State) : Host.Outcome State Fault Refusal :=
  readBits 2 Irq.pend a s

/-- `WR.ICPR0` (R142). -/
def execWrIcpr0 (a : Access) (d : Word) (s : State) : Host.Outcome State Fault Refusal :=
  writeBits 0 Irq.unpended a d s

/-- `RD.ICPR0` (R143). -/
def execRdIcpr0 (a : Access) (s : State) : Host.Outcome State Fault Refusal :=
  readBits 0 Irq.pend a s

/-- `WR.ICPR1` (R142). -/
def execWrIcpr1 (a : Access) (d : Word) (s : State) : Host.Outcome State Fault Refusal :=
  writeBits 1 Irq.unpended a d s

/-- `RD.ICPR1` (R143). -/
def execRdIcpr1 (a : Access) (s : State) : Host.Outcome State Fault Refusal :=
  readBits 1 Irq.pend a s

/-- `WR.ICPR2` (R142). -/
def execWrIcpr2 (a : Access) (d : Word) (s : State) : Host.Outcome State Fault Refusal :=
  writeBits 2 Irq.unpended a d s

/-- `RD.ICPR2` (R143). -/
def execRdIcpr2 (a : Access) (s : State) : Host.Outcome State Fault Refusal :=
  readBits 2 Irq.pend a s

end Sys2Proof.Machine
end

