-- ==== Sys2Proof/Machine/Priority.lean ====
section
/-! DEFINITION. The priority registers (43_priority_registers.md). -/

namespace Sys2Proof.Machine

/-- `WR.IPR0` (R155). -/
def execWrIpr0 (a : Access) (d : Word) (s : State) : Host.Outcome State Fault Refusal :=
  writePriority 0 a d s

/-- `RD.IPR0` (R156). -/
def execRdIpr0 (a : Access) (s : State) : Host.Outcome State Fault Refusal :=
  readPriority 0 a s

/-- `WR.IPR1` (R155). -/
def execWrIpr1 (a : Access) (d : Word) (s : State) : Host.Outcome State Fault Refusal :=
  writePriority 1 a d s

/-- `RD.IPR1` (R156). -/
def execRdIpr1 (a : Access) (s : State) : Host.Outcome State Fault Refusal :=
  readPriority 1 a s

/-- `WR.IPR2` (R155). -/
def execWrIpr2 (a : Access) (d : Word) (s : State) : Host.Outcome State Fault Refusal :=
  writePriority 2 a d s

/-- `RD.IPR2` (R156). -/
def execRdIpr2 (a : Access) (s : State) : Host.Outcome State Fault Refusal :=
  readPriority 2 a s

/-- `WR.IPR3` (R155). -/
def execWrIpr3 (a : Access) (d : Word) (s : State) : Host.Outcome State Fault Refusal :=
  writePriority 3 a d s

/-- `RD.IPR3` (R156). -/
def execRdIpr3 (a : Access) (s : State) : Host.Outcome State Fault Refusal :=
  readPriority 3 a s

/-- `WR.IPR4` (R155). -/
def execWrIpr4 (a : Access) (d : Word) (s : State) : Host.Outcome State Fault Refusal :=
  writePriority 4 a d s

/-- `RD.IPR4` (R156). -/
def execRdIpr4 (a : Access) (s : State) : Host.Outcome State Fault Refusal :=
  readPriority 4 a s

/-- `WR.IPR5` (R155). -/
def execWrIpr5 (a : Access) (d : Word) (s : State) : Host.Outcome State Fault Refusal :=
  writePriority 5 a d s

/-- `RD.IPR5` (R156). -/
def execRdIpr5 (a : Access) (s : State) : Host.Outcome State Fault Refusal :=
  readPriority 5 a s

/-- `WR.IPR6` (R155). -/
def execWrIpr6 (a : Access) (d : Word) (s : State) : Host.Outcome State Fault Refusal :=
  writePriority 6 a d s

/-- `RD.IPR6` (R156). -/
def execRdIpr6 (a : Access) (s : State) : Host.Outcome State Fault Refusal :=
  readPriority 6 a s

/-- `WR.IPR7` (R155). -/
def execWrIpr7 (a : Access) (d : Word) (s : State) : Host.Outcome State Fault Refusal :=
  writePriority 7 a d s

/-- `RD.IPR7` (R156). -/
def execRdIpr7 (a : Access) (s : State) : Host.Outcome State Fault Refusal :=
  readPriority 7 a s

/-- `WR.IPR8` (R155). -/
def execWrIpr8 (a : Access) (d : Word) (s : State) : Host.Outcome State Fault Refusal :=
  writePriority 8 a d s

/-- `RD.IPR8` (R156). -/
def execRdIpr8 (a : Access) (s : State) : Host.Outcome State Fault Refusal :=
  readPriority 8 a s

/-- `WR.IPR9` (R155). -/
def execWrIpr9 (a : Access) (d : Word) (s : State) : Host.Outcome State Fault Refusal :=
  writePriority 9 a d s

/-- `RD.IPR9` (R156). -/
def execRdIpr9 (a : Access) (s : State) : Host.Outcome State Fault Refusal :=
  readPriority 9 a s

/-- `WR.IPR10` (R155). -/
def execWrIpr10 (a : Access) (d : Word) (s : State) : Host.Outcome State Fault Refusal :=
  writePriority 10 a d s

/-- `RD.IPR10` (R156). -/
def execRdIpr10 (a : Access) (s : State) : Host.Outcome State Fault Refusal :=
  readPriority 10 a s

/-- `WR.IPR11` (R155). -/
def execWrIpr11 (a : Access) (d : Word) (s : State) : Host.Outcome State Fault Refusal :=
  writePriority 11 a d s

/-- `RD.IPR11` (R156). -/
def execRdIpr11 (a : Access) (s : State) : Host.Outcome State Fault Refusal :=
  readPriority 11 a s

/-- `WR.IPR12` (R155). -/
def execWrIpr12 (a : Access) (d : Word) (s : State) : Host.Outcome State Fault Refusal :=
  writePriority 12 a d s

/-- `RD.IPR12` (R156). -/
def execRdIpr12 (a : Access) (s : State) : Host.Outcome State Fault Refusal :=
  readPriority 12 a s

/-- `WR.IPR13` (R155). -/
def execWrIpr13 (a : Access) (d : Word) (s : State) : Host.Outcome State Fault Refusal :=
  writePriority 13 a d s

/-- `RD.IPR13` (R156). -/
def execRdIpr13 (a : Access) (s : State) : Host.Outcome State Fault Refusal :=
  readPriority 13 a s

/-- `WR.IPR14` (R155). -/
def execWrIpr14 (a : Access) (d : Word) (s : State) : Host.Outcome State Fault Refusal :=
  writePriority 14 a d s

/-- `RD.IPR14` (R156). -/
def execRdIpr14 (a : Access) (s : State) : Host.Outcome State Fault Refusal :=
  readPriority 14 a s

/-- `WR.IPR15` (R155). -/
def execWrIpr15 (a : Access) (d : Word) (s : State) : Host.Outcome State Fault Refusal :=
  writePriority 15 a d s

/-- `RD.IPR15` (R156). -/
def execRdIpr15 (a : Access) (s : State) : Host.Outcome State Fault Refusal :=
  readPriority 15 a s

/-- `WR.IPR16` (R155). -/
def execWrIpr16 (a : Access) (d : Word) (s : State) : Host.Outcome State Fault Refusal :=
  writePriority 16 a d s

/-- `RD.IPR16` (R156). -/
def execRdIpr16 (a : Access) (s : State) : Host.Outcome State Fault Refusal :=
  readPriority 16 a s

/-- `WR.IPR17` (R155). -/
def execWrIpr17 (a : Access) (d : Word) (s : State) : Host.Outcome State Fault Refusal :=
  writePriority 17 a d s

/-- `RD.IPR17` (R156). -/
def execRdIpr17 (a : Access) (s : State) : Host.Outcome State Fault Refusal :=
  readPriority 17 a s

/-- `WR.IPR18` (R155). -/
def execWrIpr18 (a : Access) (d : Word) (s : State) : Host.Outcome State Fault Refusal :=
  writePriority 18 a d s

/-- `RD.IPR18` (R156). -/
def execRdIpr18 (a : Access) (s : State) : Host.Outcome State Fault Refusal :=
  readPriority 18 a s

/-- `WR.IPR19` (R155). -/
def execWrIpr19 (a : Access) (d : Word) (s : State) : Host.Outcome State Fault Refusal :=
  writePriority 19 a d s

/-- `RD.IPR19` (R156). -/
def execRdIpr19 (a : Access) (s : State) : Host.Outcome State Fault Refusal :=
  readPriority 19 a s

/-- `WR.IPR20` (R155). -/
def execWrIpr20 (a : Access) (d : Word) (s : State) : Host.Outcome State Fault Refusal :=
  writePriority 20 a d s

/-- `RD.IPR20` (R156). -/
def execRdIpr20 (a : Access) (s : State) : Host.Outcome State Fault Refusal :=
  readPriority 20 a s

end Sys2Proof.Machine
end

