-- ==== Sys2Proof/Machine/Trigger.lean ====
section
/-! DEFINITION. The software trigger interrupt register (44_software_trigger.md). -/

namespace Sys2Proof.Machine

/-- `WR.STIR` (R165). -/
def execWrStir (a : Access) (d : Word) (s : State) : Host.Outcome State Fault Refusal :=
  checked (stirPermitted a s) (wordFormat a) s
    (match stirReservedClear d with
      | true => .next ((s.updateIrq (intId d) Irq.pended).respond .done)
      | false => .refused (.reservedStirBits d))

/-- `RD.STIR` (R166). -/
def execRdStir (a : Access) (s : State) : Host.Outcome State Fault Refusal :=
  checked (stirPermitted a s) (wordFormat a) s
    (.next (s.drawn.respond (.data 4 s.freeValue)))

end Sys2Proof.Machine
end

