-- ==== Sys2Proof/Machine/Dispatch.lean ====
section
/-! DEFINITION. One arm for each operation of the opcode table. -/

namespace Sys2Proof.Machine

def exec (i : Instr) (s : State) : Host.Outcome State Fault Refusal :=
  match i with
  | .wrIser0 a d => Sys2Proof.Machine.execWrIser0 a d s
  | .rdIser0 a => Sys2Proof.Machine.execRdIser0 a s
  | .wrIser1 a d => Sys2Proof.Machine.execWrIser1 a d s
  | .rdIser1 a => Sys2Proof.Machine.execRdIser1 a s
  | .wrIser2 a d => Sys2Proof.Machine.execWrIser2 a d s
  | .rdIser2 a => Sys2Proof.Machine.execRdIser2 a s
  | .wrIcer0 a d => Sys2Proof.Machine.execWrIcer0 a d s
  | .rdIcer0 a => Sys2Proof.Machine.execRdIcer0 a s
  | .wrIcer1 a d => Sys2Proof.Machine.execWrIcer1 a d s
  | .rdIcer1 a => Sys2Proof.Machine.execRdIcer1 a s
  | .wrIcer2 a d => Sys2Proof.Machine.execWrIcer2 a d s
  | .rdIcer2 a => Sys2Proof.Machine.execRdIcer2 a s
  | .wrIspr0 a d => Sys2Proof.Machine.execWrIspr0 a d s
  | .rdIspr0 a => Sys2Proof.Machine.execRdIspr0 a s
  | .wrIspr1 a d => Sys2Proof.Machine.execWrIspr1 a d s
  | .rdIspr1 a => Sys2Proof.Machine.execRdIspr1 a s
  | .wrIspr2 a d => Sys2Proof.Machine.execWrIspr2 a d s
  | .rdIspr2 a => Sys2Proof.Machine.execRdIspr2 a s
  | .wrIcpr0 a d => Sys2Proof.Machine.execWrIcpr0 a d s
  | .rdIcpr0 a => Sys2Proof.Machine.execRdIcpr0 a s
  | .wrIcpr1 a d => Sys2Proof.Machine.execWrIcpr1 a d s
  | .rdIcpr1 a => Sys2Proof.Machine.execRdIcpr1 a s
  | .wrIcpr2 a d => Sys2Proof.Machine.execWrIcpr2 a d s
  | .rdIcpr2 a => Sys2Proof.Machine.execRdIcpr2 a s
  | .wrIabr0 a d => Sys2Proof.Machine.execWrIabr0 a d s
  | .rdIabr0 a => Sys2Proof.Machine.execRdIabr0 a s
  | .wrIabr1 a d => Sys2Proof.Machine.execWrIabr1 a d s
  | .rdIabr1 a => Sys2Proof.Machine.execRdIabr1 a s
  | .wrIabr2 a d => Sys2Proof.Machine.execWrIabr2 a d s
  | .rdIabr2 a => Sys2Proof.Machine.execRdIabr2 a s
  | .wrIpr0 a d => Sys2Proof.Machine.execWrIpr0 a d s
  | .rdIpr0 a => Sys2Proof.Machine.execRdIpr0 a s
  | .wrIpr1 a d => Sys2Proof.Machine.execWrIpr1 a d s
  | .rdIpr1 a => Sys2Proof.Machine.execRdIpr1 a s
  | .wrIpr2 a d => Sys2Proof.Machine.execWrIpr2 a d s
  | .rdIpr2 a => Sys2Proof.Machine.execRdIpr2 a s
  | .wrIpr3 a d => Sys2Proof.Machine.execWrIpr3 a d s
  | .rdIpr3 a => Sys2Proof.Machine.execRdIpr3 a s
  | .wrIpr4 a d => Sys2Proof.Machine.execWrIpr4 a d s
  | .rdIpr4 a => Sys2Proof.Machine.execRdIpr4 a s
  | .wrIpr5 a d => Sys2Proof.Machine.execWrIpr5 a d s
  | .rdIpr5 a => Sys2Proof.Machine.execRdIpr5 a s
  | .wrIpr6 a d => Sys2Proof.Machine.execWrIpr6 a d s
  | .rdIpr6 a => Sys2Proof.Machine.execRdIpr6 a s
  | .wrIpr7 a d => Sys2Proof.Machine.execWrIpr7 a d s
  | .rdIpr7 a => Sys2Proof.Machine.execRdIpr7 a s
  | .wrIpr8 a d => Sys2Proof.Machine.execWrIpr8 a d s
  | .rdIpr8 a => Sys2Proof.Machine.execRdIpr8 a s
  | .wrIpr9 a d => Sys2Proof.Machine.execWrIpr9 a d s
  | .rdIpr9 a => Sys2Proof.Machine.execRdIpr9 a s
  | .wrIpr10 a d => Sys2Proof.Machine.execWrIpr10 a d s
  | .rdIpr10 a => Sys2Proof.Machine.execRdIpr10 a s
  | .wrIpr11 a d => Sys2Proof.Machine.execWrIpr11 a d s
  | .rdIpr11 a => Sys2Proof.Machine.execRdIpr11 a s
  | .wrIpr12 a d => Sys2Proof.Machine.execWrIpr12 a d s
  | .rdIpr12 a => Sys2Proof.Machine.execRdIpr12 a s
  | .wrIpr13 a d => Sys2Proof.Machine.execWrIpr13 a d s
  | .rdIpr13 a => Sys2Proof.Machine.execRdIpr13 a s
  | .wrIpr14 a d => Sys2Proof.Machine.execWrIpr14 a d s
  | .rdIpr14 a => Sys2Proof.Machine.execRdIpr14 a s
  | .wrIpr15 a d => Sys2Proof.Machine.execWrIpr15 a d s
  | .rdIpr15 a => Sys2Proof.Machine.execRdIpr15 a s
  | .wrIpr16 a d => Sys2Proof.Machine.execWrIpr16 a d s
  | .rdIpr16 a => Sys2Proof.Machine.execRdIpr16 a s
  | .wrIpr17 a d => Sys2Proof.Machine.execWrIpr17 a d s
  | .rdIpr17 a => Sys2Proof.Machine.execRdIpr17 a s
  | .wrIpr18 a d => Sys2Proof.Machine.execWrIpr18 a d s
  | .rdIpr18 a => Sys2Proof.Machine.execRdIpr18 a s
  | .wrIpr19 a d => Sys2Proof.Machine.execWrIpr19 a d s
  | .rdIpr19 a => Sys2Proof.Machine.execRdIpr19 a s
  | .wrIpr20 a d => Sys2Proof.Machine.execWrIpr20 a d s
  | .rdIpr20 a => Sys2Proof.Machine.execRdIpr20 a s
  | .wrStir a d => Sys2Proof.Machine.execWrStir a d s
  | .rdStir a => Sys2Proof.Machine.execRdStir a s

end Sys2Proof.Machine
end

