-- ==== Sys2Proof/Machine/Select.lean ====
section
/-! DEFINITION. The choice of the interrupt to activate: the `request` output, priority grouping,
preemption, and the processor's masking (60_exceptions.md rules R204 to R207, R213). -/

namespace Sys2Proof.Machine

/-- A candidate for activation: implemented, enabled and pending (rules R204, R205). -/
def State.candidate (s : State) (n : Nat) : Bool :=
  s.implemented n && (s.irq n).en && (s.irq n).pend

/-- The best candidate below `k`: the least level, and among equals the least number. -/
def State.bestBelow (s : State) : Nat → Option Nat
  | 0 => none
  | k + 1 =>
    match s.bestBelow k with
    | none => if s.candidate k then some k else none
    | some b => if s.candidate k && decide ((s.irq k).pri < (s.irq b).pri) then some k else some b

/-- The `request` output (rule R205; ties by decision D14, assumption 8). -/
def State.request (s : State) : Option Nat := s.bestBelow 81

/-- How many low bits of a level are subpriority: `max(0, PRIGROUP - 3)` (rule R206). -/
def subBits (g : BitVec 3) : Nat := g.toNat - 3

/-- The group priority of a level (rule R206, decision D15). -/
def groupOf (g : BitVec 3) (p : Level) : Level := p >>> subBits g

/-- The subpriority of a level (rule R206). -/
def subOf (g : BitVec 3) (p : Level) : Level := p &&& BitVec.ofNat 4 (2 ^ subBits g - 1)

/-- The group priority of interrupt `n` as it stands now. -/
def State.group (s : State) (n : Nat) : Level := groupOf s.env.priGroup (s.irq n).pri

/-- The least group priority of the active interrupts below `k`; none for +infinity. -/
def State.activeGroupBelow (s : State) : Nat → Option Level
  | 0 => none
  | k + 1 =>
    if s.implemented k && (s.irq k).act then
      match s.activeGroupBelow k with
      | none => some (s.group k)
      | some g => some (if s.group k < g then s.group k else g)
    else s.activeGroupBelow k

/-- `active_group` (rule R207). -/
def State.activeGroup (s : State) : Option Level := s.activeGroupBelow 81

/-- `core_accepts(g)`: nothing after `CPSID I`, else the group priorities below the bound
(rules R186, R213). -/
def State.coreAccepts (s : State) (g : Level) : Bool :=
  !s.env.intDisabled && decide (g.toNat < s.env.acceptBelow.val)

/-- `may_enter(n)` (rule R207). -/
def State.mayEnter (s : State) (n : Nat) : Bool :=
  s.request == some n &&
    (match s.activeGroup with
      | none => true
      | some g => decide (s.group n < g)) &&
    s.coreAccepts (s.group n)

/-- The NMI output: the input, untouched (rule R214). -/
def State.nmiOut (s : State) : Bool := s.env.nmi

end Sys2Proof.Machine
end

