-- ==== Sys2Proof/Machine/Events.lean ====
section
/-! DEFINITION. What each input of the environment does: a transaction is decoded and run; the four
events of 30_encoding.md rule R107; the inputs of 10_state.md rule R37. -/

namespace Sys2Proof.Machine

/-- The refusal of an address that decodes to no operation (20_memory.md rule R77). -/
def refusalOf : DecodeError → Refusal
  | .hole addr => .hole addr
  | .outside addr => .outsideNvic addr

/-- A bus transaction: decode it and run the operation (30_encoding.md rule R101). -/
def transact (t : Transaction) (s : State) : Host.Outcome State Fault Refusal :=
  match decode t with
  | .ok i => exec i s
  | .error e => .refused (refusalOf e)

/-- `Entry(n)`, enabled only when `may_enter(n)` (60_exceptions.md rule R208). -/
def enter (n : Nat) (s : State) : Host.Outcome State Fault Refusal :=
  match s.mayEnter n with
  | true => .next (s.enterIsr n)
  | false => .fault (.entryNotEnabled n)

/-- `Return(n, level)`, enabled only when `ACT[n] = 1` (rule R209). -/
def leave (n : Nat) (level : Bool) (s : State) : Host.Outcome State Fault Refusal :=
  match s.implemented n && (s.irq n).act with
  | true => .next (s.returnFromIsr n level)
  | false => .fault (.returnNotEnabled n)

/-- "Only privileged software can enable unprivileged access to the STIR": an unprivileged write of
`USERSETMPEND` leaves it (44_software_trigger.md rule R167, assumption 9). -/
def setUserSetMPend (priv value : Bool) (s : State) : State :=
  match priv with
  | true => { s with env := { s.env with userSetMPend := value } }
  | false => s

/-- One step: what the delivered input does.  DESIGN CHOICE: `cpsid`, `cpsie`, `setPriGroup` and
`setAcceptBelow` carry no privilege and always act; what privilege the processor asks for `CPSID I`
and `CPSIE I` is not in the source (91_not_in_source.md N27, assumption 28). -/
def deliver (e : Input) (s : State) : Host.Outcome State Fault Refusal :=
  match e with
  | .bus t => transact t s
  | .fetch addr => .refused (.instructionFetch addr)
  | .sample irqIn => .next (s.sampleSignals irqIn)
  | .entry n => enter n s
  | .ret n level => leave n level s
  | .reset => .next s.resetIrqs
  | .setUserSetMPend priv value => .next (setUserSetMPend priv value s)
  | .setPriGroup g => .next { s with env := { s.env with priGroup := g } }
  | .setAcceptBelow b => .next { s with env := { s.env with acceptBelow := b } }
  | .cpsid => .next { s with env := { s.env with intDisabled := true } }
  | .cpsie => .next { s with env := { s.env with intDisabled := false } }
  | .nmi level => .next { s with env := { s.env with nmi := level } }

/-- Deliver a list of inputs in order, stopping at the first that does not answer a next state. -/
def deliverAll : List Input → State → Host.Outcome State Fault Refusal
  | [], s => .next s
  | e :: rest, s =>
    match deliver e s with
    | .next t => deliverAll rest t
    | .fault r => .fault r
    | .refused r => .refused r

end Sys2Proof.Machine
end

