-- ==== Sys2Proof/Machine/Step.lean ====
section
/-! DEFINITION. One step of the machine, and how the host places an operation before it. -/

namespace Sys2Proof.Machine

/-- Deliver the next input.  Without one the NVIC does nothing: it initiates no step of its own
(10_state.md rule R39, INDEX.md "Who causes a step"). -/
def step (s : State) : Host.Outcome State Fault Refusal :=
  match s.takeInput with
  | none => .next s
  | some (e, t) => deliver e t

/-- The state in which the very next input is the transaction whose fields are the bits of `w`
(assumption 5). -/
def State.withFetchWord (s : State) (nbits w : Nat) : State :=
  { s with inputs := .bus (Transaction.ofBits (w % 2 ^ nbits)) :: s.inputs }

end Sys2Proof.Machine
end

