-- ==== Sys2Proof/Machine/Cmsis.lean ====
section
/-! DEFINITION. The twelve pseudo-instructions of 45_cmsis_functions.md: each expands to one input,
a privileged transaction or an event (rules R175 to R187), and a function that returns a value has a
reading of the answer.  `n` is the function's `IRQn`. -/

namespace Sys2Proof.Machine

/-- `mask = 1 << (n MOD 32)` (rule R175). -/
def irqMask (n : Nat) : Word := BitVec.ofNat 32 (2 ^ (n % 32))

/-- The address of the register of a group that holds interrupt `n`: `group + 4*(n DIV 32)`
(rule R175).  DESIGN CHOICE: the rule's `n` is below `NUM_IRQ`; at any other `n` the model sends the
same formula's transaction, wherever it falls (assumption 30). -/
def bitRegister (group n : Nat) : Word := BitVec.ofNat 32 (group + 4 * (n / 32))

/-- The address of the field `IP[n]` (43_priority_registers.md rule R158); at `n` not below `NUM_IRQ`
as `bitRegister` (assumption 30). -/
def priorityByte (n : Nat) : Word := BitVec.ofNat 32 (0xE000E400 + n)

/-- `NVIC_EnableIRQ` (rule R176). -/
def nvicEnableIRQ (n : Nat) : Input :=
  .bus ⟨.write (irqMask n), bitRegister 0xE000E100 n, 4, true⟩

/-- `NVIC_DisableIRQ` (rule R177). -/
def nvicDisableIRQ (n : Nat) : Input :=
  .bus ⟨.write (irqMask n), bitRegister 0xE000E180 n, 4, true⟩

/-- `NVIC_SetPendingIRQ` (rule R178). -/
def nvicSetPendingIRQ (n : Nat) : Input :=
  .bus ⟨.write (irqMask n), bitRegister 0xE000E200 n, 4, true⟩

/-- `NVIC_ClearPendingIRQ` (rule R179). -/
def nvicClearPendingIRQ (n : Nat) : Input :=
  .bus ⟨.write (irqMask n), bitRegister 0xE000E280 n, 4, true⟩

/-- `NVIC_GetPendingIRQ` (rule R180): the read of ISPRk. -/
def nvicGetPendingIRQ (n : Nat) : Input := .bus ⟨.read, bitRegister 0xE000E200 n, 4, true⟩

/-- `NVIC_SetPriority` (rule R181): one byte, the level in bits[7:4] (decision D26). -/
def nvicSetPriority (n : Nat) (priority : Word) : Input :=
  .bus ⟨.write ((priority <<< 4) &&& 0xFF), priorityByte n, 1, true⟩

/-- `NVIC_GetPriority` (rule R182): the read of the byte `IP[n]`. -/
def nvicGetPriority (n : Nat) : Input := .bus ⟨.read, priorityByte n, 1, true⟩

/-- `NVIC_GetActive` (rule R183): the read of IABRk. -/
def nvicGetActive (n : Nat) : Input := .bus ⟨.read, bitRegister 0xE000E300 n, 4, true⟩

/-- `NVIC_SetPriorityGrouping` (rule R184): no NVIC transaction; it sets the input `PRIGROUP`.
DESIGN CHOICE: the argument is the value of `PRIGROUP`, 0..7; its encoding and range are not in the
source, and an argument above 7 has no input here (assumption 29). -/
def nvicSetPriorityGrouping (g : BitVec 3) : Input := .setPriGroup g

/-- `NVIC_SystemReset` (rule R185): the event `Reset`.  DESIGN CHOICE: the call is the reset step
itself, with no step between; when the reset happens relative to the call is not in the source
(assumption 31). -/
def nvicSystemReset : Input := .reset

/-- `__disable_irq` (rule R186). -/
def disableIrq : Input := .cpsid

/-- `__enable_irq` (rule R187). -/
def enableIrq : Input := .cpsie

/-- Whether `NVIC_GetPendingIRQ(n)` or `NVIC_GetActive(n)` returns non-zero, from the answer of its
read.  The source fixes no more of the value (rules R180, R183).  Any other answer reads as `false`
(assumption 30). -/
def nonZeroResult (n : Nat) : Option Answer → Bool
  | some (.data _ v) => v.getLsbD (n % 32)
  | _ => false

/-- What `NVIC_GetPriority` returns, from the answer of its read: `f >> 4` (rule R182, decision
D26).  Any other answer reads as 0 (assumption 30). -/
def priorityResult : Option Answer → Word
  | some (.data _ f) => f >>> 4
  | _ => 0

end Sys2Proof.Machine
end

