-- ==== Sys2Proof/Safety.lean ====
section
/-! DEFINITION. What counts as a safe run, and the invariants of the NVIC in which claims are
stated. -/

namespace Sys2Proof.Machine

/-- A script is safe when every input of it answers a next state: no event comes while it is not
enabled and no access is `Unsupported` (00_scope.md rule R10). -/
def SafeScript (es : List Input) (s : State) : Prop := ∃ t, deliverAll es s = .next t

/-- The invariant of 60_exceptions.md rule R212: a signal last seen HIGH belongs to an interrupt
that is active or pending. -/
def State.LevelInv (s : State) : Prop :=
  ∀ n, (s.irq n).line = true → (s.irq n).act = false → (s.irq n).pend = true

/-- A place that belongs to no interrupt of the device holds no state (10_state.md rule R51). -/
def State.QuietInv (s : State) : Prop :=
  ∀ n, s.implemented n = false → s.irq n = Irq.reset

/-- The active interrupts have pairwise different group priorities (60_exceptions.md rule R207). -/
def State.ActiveGroupsDistinct (s : State) : Prop :=
  ∀ a b, s.implemented a = true → s.implemented b = true →
    (s.irq a).act = true → (s.irq b).act = true → a ≠ b → s.group a ≠ s.group b

/-- An operation that rewrites priorities: a privileged `WR.IPRm`.  One without privilege is an
access fault and rewrites nothing (20_memory.md rule R78). -/
def Instr.rewritesPriority (i : Instr) : Bool :=
  i.register.byteAccessible && i.writeData.isSome && i.access.priv

/-- An input that may change a priority or the priority grouping.  Rule R207 asks that none comes
while an interrupt is active. -/
def Input.rewritesPriority : Input → Bool
  | .bus t => match decode t with
    | .ok i => Instr.rewritesPriority i
    | .error _ => false
  | .setPriGroup _ => true
  | .fetch _ | .sample _ | .entry _ | .ret _ _ | .reset | .setUserSetMPend _ _
  | .setAcceptBelow _ | .cpsid | .cpsie | .nmi _ => false

/-- How many interrupts are active. -/
def State.activeCount (s : State) : Nat :=
  ((List.range 81).filter fun n => s.implemented n && (s.irq n).act).length

end Sys2Proof.Machine
end

