-- ==== Sys2Proof/Certificates/Slice0/Obligations.lean ====
section
/-! DEFINITION. The statements for the provers.  The lists of Sys2Proof.Claims name the operations
of one shape; a statement over a list is one for each operation in it. -/

namespace Sys2Proof.Claims

open Sys2Proof.Machine

/-! ## The operations by shape: constructor and register index -/

def iserWrites : List ((Access → Word → Instr) × Nat) :=
  [(.wrIser0, 0), (.wrIser1, 1), (.wrIser2, 2)]
def icerWrites : List ((Access → Word → Instr) × Nat) :=
  [(.wrIcer0, 0), (.wrIcer1, 1), (.wrIcer2, 2)]
def isprWrites : List ((Access → Word → Instr) × Nat) :=
  [(.wrIspr0, 0), (.wrIspr1, 1), (.wrIspr2, 2)]
def icprWrites : List ((Access → Word → Instr) × Nat) :=
  [(.wrIcpr0, 0), (.wrIcpr1, 1), (.wrIcpr2, 2)]
def iabrWrites : List (Access → Word → Instr) := [.wrIabr0, .wrIabr1, .wrIabr2]
def enableReads : List ((Access → Instr) × Nat) :=
  [(.rdIser0, 0), (.rdIser1, 1), (.rdIser2, 2), (.rdIcer0, 0), (.rdIcer1, 1), (.rdIcer2, 2)]
def pendingReads : List ((Access → Instr) × Nat) :=
  [(.rdIspr0, 0), (.rdIspr1, 1), (.rdIspr2, 2), (.rdIcpr0, 0), (.rdIcpr1, 1), (.rdIcpr2, 2)]
def activeReads : List ((Access → Instr) × Nat) :=
  [(.rdIabr0, 0), (.rdIabr1, 1), (.rdIabr2, 2)]
def iprOps : List ((Access → Word → Instr) × (Access → Instr) × Nat) :=
  [(.wrIpr0, .rdIpr0, 0), (.wrIpr1, .rdIpr1, 1), (.wrIpr2, .rdIpr2, 2), (.wrIpr3, .rdIpr3, 3),
   (.wrIpr4, .rdIpr4, 4), (.wrIpr5, .rdIpr5, 5), (.wrIpr6, .rdIpr6, 6), (.wrIpr7, .rdIpr7, 7),
   (.wrIpr8, .rdIpr8, 8), (.wrIpr9, .rdIpr9, 9), (.wrIpr10, .rdIpr10, 10),
   (.wrIpr11, .rdIpr11, 11), (.wrIpr12, .rdIpr12, 12), (.wrIpr13, .rdIpr13, 13),
   (.wrIpr14, .rdIpr14, 14), (.wrIpr15, .rdIpr15, 15), (.wrIpr16, .rdIpr16, 16),
   (.wrIpr17, .rdIpr17, 17), (.wrIpr18, .rdIpr18, 18), (.wrIpr19, .rdIpr19, 19),
   (.wrIpr20, .rdIpr20, 20)]

/-! ## Forms of an access -/

/-- A privileged access of four bytes at the register's own address. -/
def PrivWord (a : Access) : Prop := a.priv = true ∧ a.size = 4 ∧ a.lane = 0

/-- A privileged aligned access of 1, 2 or 4 bytes. -/
def PrivLanes (a : Access) : Prop :=
  a.priv = true ∧ (a.size = 1 ∨ a.size = 2 ∨ a.size = 4) ∧ a.lane.toNat % a.size = 0

/-- An access of four bytes that STIR's privilege check lets pass. -/
def StirWord (a : Access) (s : State) : Prop :=
  (a.priv = true ∨ s.env.userSetMPend = true) ∧ a.size = 4 ∧ a.lane = 0

/-- The addresses of the registers (20_memory.md rule R76). -/
def InRegister (addr : Word) : Prop :=
  (0xE000E100 ≤ addr.toNat ∧ addr.toNat ≤ 0xE000E10B) ∨
  (0xE000E180 ≤ addr.toNat ∧ addr.toNat ≤ 0xE000E18B) ∨
  (0xE000E200 ≤ addr.toNat ∧ addr.toNat ≤ 0xE000E20B) ∨
  (0xE000E280 ≤ addr.toNat ∧ addr.toNat ≤ 0xE000E28B) ∨
  (0xE000E300 ≤ addr.toNat ∧ addr.toNat ≤ 0xE000E30B) ∨
  (0xE000E400 ≤ addr.toNat ∧ addr.toNat ≤ 0xE000E453) ∨
  (0xE000EF00 ≤ addr.toNat ∧ addr.toNat ≤ 0xE000EF03)

/-! ## Frames -/

/-- Everything but the interrupts and the answer is as before. -/
def Frame (s t : State) : Prop :=
  t.cfg = s.cfg ∧ t.env = s.env ∧ t.inputs = s.inputs ∧ t.freeCtr = s.freeCtr

/-- Everything but the interrupts is as before. -/
def EventFrame (s t : State) : Prop := Frame s t ∧ t.answer = s.answer

end Sys2Proof.Claims

open Sys2Proof Sys2Proof.Machine Sys2Proof.Claims

/-! ## Encoding -/

/-- 30_encoding.md rules R100 to R104: decoding an encoded operation gives it back, at every
privilege, size, byte offset and data that its `8*size` bits hold. -/
def Obligations.DecodeOfEncode : Prop :=
  ∀ i : Instr, i.dataFits = true → decode (encode i) = .ok i

/-- The same through the model's numbering of a transaction's fields as bits (assumption 4). -/
def Obligations.DecodeTableWordOfBits : Prop :=
  ∀ i : Instr, i.wellFormed = true → decodeTableWord 68 (encode i).toBits = some i

/-- 20_memory.md rule R76: the addresses that belong to a register. -/
def Obligations.AddressMap : Prop :=
  ∀ addr : Word, (registerAt addr).isSome = true ↔ InRegister addr

/-- 30_encoding.md rule R101 steps 1 and 2: an address belongs to a register exactly when it is one
of its four bytes, so no two rows of the table overlap. -/
def Obligations.RegisterOwnsItsFourBytes : Prop :=
  ∀ (addr : Word) (r : Register),
    registerAt addr = some r ↔ r.base.toNat ≤ addr.toNat ∧ addr.toNat < r.base.toNat + 4

/-- Words of rule R101's table, one of each family. -/
def Obligations.TableWordsDecode : Prop :=
  decodeTableWord 68 0x00000020_E000E104 = some (.wrIser1 ⟨true, 4, 0⟩ 0x20) ∧
  decodeTableWord 68 0x1_00000000_E000E188 = some (.rdIcer2 ⟨true, 4, 0⟩) ∧
  decodeTableWord 68 0x00000008_E000E200 = some (.wrIspr0 ⟨true, 4, 0⟩ 8) ∧
  decodeTableWord 68 0x1_00000000_E000E284 = some (.rdIcpr1 ⟨true, 4, 0⟩) ∧
  decodeTableWord 68 0x1_00000000_E000E300 = some (.rdIabr0 ⟨true, 4, 0⟩) ∧
  decodeTableWord 68 0x4_0000005A_E000E425 = some (.wrIpr9 ⟨true, 1, 1⟩ 0x5A) ∧
  decodeTableWord 68 0x2_00000003_E000EF00 = some (.wrStir ⟨false, 4, 0⟩ 3)

/-! ## Enable registers -/

/-- 40_enable_registers.md rule R130, with its address and frame: a 1 enables its interrupt, a 0 does
nothing.  (That a number at or above `NUM_IRQ` is ignored is the spec's decision D2, assumption 12.) -/
def Obligations.SetEnableWrite : Prop :=
  ∀ c k, (c, k) ∈ iserWrites → ∀ (a : Access) (d : Word) (s : State), PrivWord a →
    (encode (c a d)).addr = BitVec.ofNat 32 (0xE000E100 + 4 * k) ∧
    ∃ t, exec (c a d) s = .next t ∧ t.answer = some .done ∧ Frame s t ∧
      ∀ n, t.irq n =
        if n < s.cfg.numIrq ∧ n / 32 = k ∧ d.getLsbD (n % 32) = true
        then { s.irq n with en := true } else s.irq n

/-- 40_enable_registers.md rule R132, with its address and frame, as `SetEnableWrite`. -/
def Obligations.ClearEnableWrite : Prop :=
  ∀ c k, (c, k) ∈ icerWrites → ∀ (a : Access) (d : Word) (s : State), PrivWord a →
    (encode (c a d)).addr = BitVec.ofNat 32 (0xE000E180 + 4 * k) ∧
    ∃ t, exec (c a d) s = .next t ∧ t.answer = some .done ∧ Frame s t ∧
      ∀ n, t.irq n =
        if n < s.cfg.numIrq ∧ n / 32 = k ∧ d.getLsbD (n % 32) = true
        then { s.irq n with en := false } else s.irq n

/-- 40_enable_registers.md rules R131 and R133: both registers show `EN`, 0 where there is no
interrupt (10_state.md rule R51, the spec's decision D2), and nothing but the answer changes. -/
def Obligations.EnableReads : Prop :=
  ∀ c k, (c, k) ∈ enableReads → ∀ (a : Access) (s : State), PrivWord a →
    ∃ v, exec (c a) s = .next { s with answer := some (.data 4 v) } ∧
      ∀ i, i < 32 → v.getLsbD i =
        (decide (32 * k + i < s.cfg.numIrq) && (s.irq (32 * k + i)).en)

/-! ## Pending registers -/

/-- 41_pending_registers.md rule R140, with its address and frame, as `SetEnableWrite`. -/
def Obligations.SetPendingWrite : Prop :=
  ∀ c k, (c, k) ∈ isprWrites → ∀ (a : Access) (d : Word) (s : State), PrivWord a →
    (encode (c a d)).addr = BitVec.ofNat 32 (0xE000E200 + 4 * k) ∧
    ∃ t, exec (c a d) s = .next t ∧ t.answer = some .done ∧ Frame s t ∧
      ∀ n, t.irq n =
        if n < s.cfg.numIrq ∧ n / 32 = k ∧ d.getLsbD (n % 32) = true
        then { s.irq n with pend := true } else s.irq n

/-- 41_pending_registers.md rule R142, with its frame: an asserted signal keeps its interrupt
pending (the spec's decision D17), and `ACT` is never changed. -/
def Obligations.ClearPendingWrite : Prop :=
  ∀ c k, (c, k) ∈ icprWrites → ∀ (a : Access) (d : Word) (s : State), PrivWord a →
    ∃ t, exec (c a d) s = .next t ∧ t.answer = some .done ∧ Frame s t ∧
      ∀ n, t.irq n =
        if n < s.cfg.numIrq ∧ n / 32 = k ∧ d.getLsbD (n % 32) = true ∧ (s.irq n).line = false
        then { s.irq n with pend := false } else s.irq n

/-- 41_pending_registers.md rules R141 and R143, as `EnableReads`. -/
def Obligations.PendingReads : Prop :=
  ∀ c k, (c, k) ∈ pendingReads → ∀ (a : Access) (s : State), PrivWord a →
    ∃ v, exec (c a) s = .next { s with answer := some (.data 4 v) } ∧
      ∀ i, i < 32 → v.getLsbD i =
        (decide (32 * k + i < s.cfg.numIrq) && (s.irq (32 * k + i)).pend)

/-! ## Active registers -/

/-- 42_active_registers.md rule R150, as `EnableReads`. -/
def Obligations.ActiveReads : Prop :=
  ∀ c k, (c, k) ∈ activeReads → ∀ (a : Access) (s : State), PrivWord a →
    ∃ v, exec (c a) s = .next { s with answer := some (.data 4 v) } ∧
      ∀ i, i < 32 → v.getLsbD i =
        (decide (32 * k + i < s.cfg.numIrq) && (s.irq (32 * k + i)).act)

/-- 42_active_registers.md rule R151 (the spec's decision D11): a write is accepted and changes
nothing but the answer. -/
def Obligations.ActiveWriteIgnored : Prop :=
  ∀ c ∈ iabrWrites, ∀ (a : Access) (d : Word) (s : State), PrivWord a →
    exec (c a d) s = .next { s with answer := some .done }

/-! ## Priority registers -/

/-- 43_priority_registers.md rule R155, with its address and frame: the accessed fields keep bits
7:4 of their byte, every other field its value.  (That a number at or above `NUM_IRQ` is ignored is
the spec's decision D2, assumption 12.) -/
def Obligations.PriorityWrite : Prop :=
  ∀ cw cr m, (cw, cr, m) ∈ iprOps → ∀ (a : Access) (d : Word) (s : State), PrivLanes a →
    (encode (cw a d)).addr = BitVec.ofNat 32 (0xE000E400 + 4 * m + a.lane.toNat) ∧
    ∃ t, exec (cw a d) s = .next t ∧ t.answer = some .done ∧ Frame s t ∧
      ∀ n, t.irq n =
        if n < s.cfg.numIrq ∧ 4 * m + a.lane.toNat ≤ n ∧ n < 4 * m + a.lane.toNat + a.size
        then { s.irq n with pri := d.extractLsb' (8 * (n - (4 * m + a.lane.toNat)) + 4) 4 }
        else s.irq n

/-- 43_priority_registers.md rule R156: byte `j` of the value is `PRI[n0+j] ++ 0b0000`, 0 where
there is no interrupt (decision D2) and above the access; nothing but the answer changes. -/
def Obligations.PriorityRead : Prop :=
  ∀ cw cr m, (cw, cr, m) ∈ iprOps → ∀ (a : Access) (s : State), PrivLanes a →
    ∃ v, exec (cr a) s = .next { s with answer := some (.data a.size v) } ∧
      ∀ j, j < 4 → v.extractLsb' (8 * j) 8 =
        if j < a.size ∧ 4 * m + a.lane.toNat + j < s.cfg.numIrq
        then (s.irq (4 * m + a.lane.toNat + j)).pri ++ 0#4 else 0

/-- Rules R34, R155 and R156 together: what was written reads back with bits 3:0 of every field 0,
when every field accessed belongs to an interrupt. -/
def Obligations.PriorityReadsBack : Prop :=
  ∀ cw cr m, (cw, cr, m) ∈ iprOps → ∀ (a : Access) (d : Word) (s : State), PrivLanes a →
    4 * m + a.lane.toNat + a.size ≤ s.cfg.numIrq →
    ∃ t u, exec (cw a d) s = .next t ∧ exec (cr a) t = .next u ∧
      u.answer = some (.data a.size (BitVec.ofNat 32
        ((d &&& 0xF0F0F0F0).toNat % 2 ^ (8 * a.size))))

/-! ## Software trigger -/

/-- 44_software_trigger.md rules R165 and R167, with the frame: a permitted write with bits 31:9
clear pends the interrupt it names and no other; a number that names none is ignored (the spec's
decision D12). -/
def Obligations.SoftwareTrigger : Prop :=
  ∀ (a : Access) (d : Word) (s : State), StirWord a s → d.toNat < 512 →
    ∃ t, exec (.wrStir a d) s = .next t ∧ t.answer = some .done ∧ Frame s t ∧
      ∀ n, t.irq n =
        if n < s.cfg.numIrq ∧ n = d.toNat then { s.irq n with pend := true } else s.irq n

/-- 44_software_trigger.md rule R165 (the spec's decision D12): a permitted write with a bit of 31:9
set is refused. -/
def Obligations.SoftwareTriggerReservedRefused : Prop :=
  ∀ (a : Access) (d : Word) (s : State), StirWord a s → 512 ≤ d.toNat →
    exec (.wrStir a d) s = .refused (.reservedStirBits d)

/-- 44_software_trigger.md rule R166 (the spec's decision D10): a permitted read answers a free
value and changes no NVIC state; only the count of free values goes on (assumption 3). -/
def Obligations.SoftwareTriggerRead : Prop :=
  ∀ (a : Access) (s : State), StirWord a s →
    exec (.rdStir a) s = .next { s with
      answer := some (.data 4 (Config.freeValue s.freeCtr)), freeCtr := s.freeCtr + 1 }

/-- 44_software_trigger.md rule R167: without privilege and with USERSETMPEND clear every access to
STIR, of any size, alignment and data, is an access fault and changes nothing else. -/
def Obligations.SoftwareTriggerDenied : Prop :=
  ∀ (a : Access) (d : Word) (s : State), a.priv = false → s.env.userSetMPend = false →
    exec (.wrStir a d) s = .next { s with answer := some .accessFault } ∧
    exec (.rdStir a) s = .next { s with answer := some .accessFault }

/-- 44_software_trigger.md rule R168: a write of `n` to STIR and a write of its bit to ISPR give
the same state. -/
def Obligations.SoftwareTriggerIsSetPending : Prop :=
  ∀ c k, (c, k) ∈ isprWrites → ∀ (a : Access) (n : Nat) (s : State), PrivWord a →
    n < s.cfg.numIrq → n / 32 = k →
    ∃ t, exec (.wrStir a (BitVec.ofNat 32 n)) s = .next t ∧
      exec (c a (BitVec.ofNat 32 (2 ^ (n % 32)))) s = .next t ∧ (t.irq n).pend = true

/-! ## Checks and whole-machine rules of transactions -/

/-- 20_memory.md rule R78 (the outcome is the spec's decision D8): an unprivileged access to any
register but STIR is an access fault whatever its size, alignment and data. -/
def Obligations.UnprivilegedIsAccessFault : Prop :=
  ∀ (i : Instr) (s : State), i.register ≠ .stir → i.access.priv = false →
    exec i s = .next { s with answer := some .accessFault }

/-- 20_memory.md rules R72 and R73 (the outcome is the spec's decisions D5 and D6): an access that
passes its privilege check (rule R78, for STIR 44_software_trigger.md rule R167), of a size the
register does not support or not aligned, is refused by name. -/
def Obligations.WrongFormatRefused : Prop :=
  ∀ (i : Instr) (s : State),
    (i.access.priv = true ∨ i.register = .stir ∧ s.env.userSetMPend = true) →
    i.formatOk = false →
    exec i s = .refused (.unsupportedSize i.access.size) ∨
    exec i s = .refused (.unaligned i.access.size i.access.lane)

/-- When a privileged operation completes: exactly in the formats of 30_encoding.md rule R100, for
`WR.STIR` with the reserved data bits clear (44_software_trigger.md rule R165, decision D12).  The
stops are assumption 13's; that a 2-byte IPR access, an IABR write and a STIR read complete is
assumptions 14, 15 and 3. -/
def Obligations.PrivilegedCompletesIffFormat : Prop :=
  ∀ (i : Instr) (s : State), i.access.priv = true →
    ((∃ t, exec i s = .next t) ↔ i.formatOk = true ∧ i.reservedClear = true)

/-- 20_memory.md rule R75: no read changes the NVIC's state. -/
def Obligations.ReadsChangeNothing : Prop :=
  ∀ (i : Instr) (s t : State), i.writeData = none → exec i s = .next t →
    t.irqs = s.irqs ∧ t.cfg = s.cfg ∧ t.env = s.env ∧ t.inputs = s.inputs

/-- Who writes what (10_state.md rules R31 to R34, R40): no transaction changes `ACT` or `LINE`;
`EN` changes only by ISER and ICER, `PEND` only by ISPR, ICPR and STIR, `PRI` only by IPR. -/
def Obligations.TransactionsChangeOnlyTheirBit : Prop :=
  ∀ (i : Instr) (s t : State), exec i s = .next t → ∀ n,
    (t.irq n).act = (s.irq n).act ∧ (t.irq n).line = (s.irq n).line ∧
    (i.register ∉ [Register.iser0, .iser1, .iser2, .icer0, .icer1, .icer2] →
      (t.irq n).en = (s.irq n).en) ∧
    (i.register ∉ [Register.ispr0, .ispr1, .ispr2, .icpr0, .icpr1, .icpr2, .stir] →
      (t.irq n).pend = (s.irq n).pend) ∧
    (i.register.byteAccessible = false → (t.irq n).pri = (s.irq n).pri)

/-- 20_memory.md rule R77 (the spec's decision D7): a transaction whose address lies in no register
is refused, whatever its privilege. -/
def Obligations.HolesRefused : Prop :=
  ∀ (t : Transaction) (s : State) (rest : List Input), s.inputs = .bus t :: rest →
    ¬ InRegister t.addr →
    step s = .refused
      (if 0xE000E100 ≤ t.addr.toNat ∧ t.addr.toNat ≤ 0xE000E453
       then .hole t.addr else .outsideNvic t.addr)

/-- An unprivileged transaction learns nothing of the interrupts: two machines that differ in the
interrupts alone, the device and the inputs being the same, answer it alike.  For a permitted read
of STIR this rests on the model's choice that the free value depends on the count of draws alone
(assumption 3; decision D10 leaves it open). -/
def Obligations.UnprivilegedLearnsNothing : Prop :=
  ∀ (t : Transaction) (s s' : State) (v : Vector Irq 81), t.priv = false →
    transact t s = .next s' →
    ∃ s'', transact t { s with irqs := v } = .next s'' ∧ s''.answer = s'.answer

/-- Isolation: while USERSETMPEND is clear no unprivileged transaction changes the interrupts. -/
def Obligations.UnprivilegedChangesNothing : Prop :=
  ∀ (t : Transaction) (s s' : State), t.priv = false → s.env.userSetMPend = false →
    transact t s = .next s' → s' = { s with answer := some .accessFault }

/-! ## Steps -/

/-- When the next input is a transaction that decodes to an operation, the step is that operation
at the state without the input. -/
def Obligations.StepRunsDecoded : Prop :=
  ∀ (t : Transaction) (i : Instr) (s : State) (rest : List Input),
    s.inputs = .bus t :: rest → decode t = .ok i →
    step s = exec i { s with inputs := rest }

/-- Without an input the NVIC does nothing (10_state.md rule R39). -/
def Obligations.StepIdles : Prop := ∀ s : State, s.inputs = [] → step s = .next s

/-! ## Events -/

/-- 60_exceptions.md rule R202, with its frame. -/
def Obligations.SampleEvent : Prop :=
  ∀ (x : Signals) (s : State) (rest : List Input), s.inputs = .sample x :: rest →
    ∃ t, step s = .next t ∧ EventFrame { s with inputs := rest } t ∧
      ∀ n, t.irq n =
        if n < s.cfg.numIrq then
          { s.irq n with
            line := x.getLsbD n
            pend := (s.irq n).pend || (x.getLsbD n && !(s.irq n).line)
              || (x.getLsbD n && !(s.irq n).act) }
        else s.irq n

/-- 60_exceptions.md rule R208, with its frame, when `may_enter(n)` holds. -/
def Obligations.EntryEvent : Prop :=
  ∀ (n : Nat) (s : State) (rest : List Input), s.inputs = .entry n :: rest →
    s.mayEnter n = true →
    ∃ t, step s = .next t ∧ EventFrame { s with inputs := rest } t ∧
      t.irq n = { s.irq n with pend := false, act := true } ∧
      ∀ m, m ≠ n → t.irq m = s.irq m

/-- 60_exceptions.md rule R208: without `may_enter(n)` there is no entry. -/
def Obligations.EntryNeedsMayEnter : Prop :=
  ∀ (n : Nat) (s : State) (rest : List Input), s.inputs = .entry n :: rest →
    s.mayEnter n = false → step s = .fault (.entryNotEnabled n)

/-- 60_exceptions.md rule R209, with its frame, when the interrupt is active. -/
def Obligations.ReturnEvent : Prop :=
  ∀ (n : Nat) (level : Bool) (s : State) (rest : List Input), s.inputs = .ret n level :: rest →
    n < s.cfg.numIrq → (s.irq n).act = true →
    ∃ t, step s = .next t ∧ EventFrame { s with inputs := rest } t ∧
      t.irq n = { s.irq n with act := false, pend := (s.irq n).pend || level, line := level } ∧
      ∀ m, m ≠ n → t.irq m = s.irq m

/-- 60_exceptions.md rule R209: without `ACT[n] = 1` there is no return. -/
def Obligations.ReturnNeedsActive : Prop :=
  ∀ (n : Nat) (level : Bool) (s : State) (rest : List Input), s.inputs = .ret n level :: rest →
    (s.irq n).act = false → step s = .fault (.returnNotEnabled n)

/-- 70_reset_and_hazards.md rule R250 (for `LINE` the spec's decision D18): after the event every
component of every interrupt is zero, no interrupt is requested, and every readable register reads
zero. -/
def Obligations.ResetEvent : Prop :=
  ∀ (s : State) (rest : List Input), s.inputs = .reset :: rest →
    ∃ t, step s = .next t ∧ EventFrame { s with inputs := rest } t ∧
      (∀ n, n < s.cfg.numIrq → t.irq n = ⟨false, false, false, 0, false⟩) ∧
      t.request = none ∧
      ∀ i : Instr, i.writeData = none → i.register ≠ .stir → i.access.priv = true →
        i.formatOk = true → exec i t = .next { t with answer := some (.data i.access.size 0) }

/-- 10_state.md rule R49: the machine right after reset. -/
def Obligations.ResetState : Prop :=
  ∀ n, State.reset.irq n = ⟨false, false, false, 0, false⟩

/-- 45_cmsis_functions.md rules R186 and R187, 60_exceptions.md rule R213: `CPSID I` changes no
NVIC state and no interrupt may be entered after it; `CPSIE I` takes it back. -/
def Obligations.MaskedProcessorEntersNothing : Prop :=
  ∀ s : State, ∃ t, deliver .cpsid s = .next t ∧ t.irqs = s.irqs ∧
    (∀ n, t.mayEnter n = false) ∧ t.request = s.request ∧
    ∃ u, deliver .cpsie t = .next u ∧
      u = { s with env := { s.env with intDisabled := false } }

/-- 44_software_trigger.md rule R167: only privileged software changes USERSETMPEND, and no other
input but its own does.  That an unprivileged write is ignored is assumption 9's; that `Reset` keeps
the bit (70_reset_and_hazards.md rule R250: the inputs keep what the environment gives them) is the
model's choice, assumption 25. -/
def Obligations.OnlyPrivilegedOpensTrigger : Prop :=
  ∀ (e : Input) (s t : State), deliver e s = .next t → t.env.userSetMPend ≠ s.env.userSetMPend →
    ∃ v, e = .setUserSetMPend true v

/-- 10_state.md rule R37: what every input does that is neither a transaction nor one of the four
events.  An instruction fetch is refused (20_memory.md rule R82, decision D23, assumption 13);
USERSETMPEND is set by privileged software (44_software_trigger.md rule R167) and left by other
software (assumption 9); PRIGROUP, the bound and the `CPSID` mask take their value
(45_cmsis_functions.md rules R184, R186, R187, 60_exceptions.md rule R213, assumptions 6 and 28); the
NMI passes to its output and touches nothing else (rule R214, assumption 7). -/
def Obligations.OtherInputs : Prop :=
  ∀ (s : State) (rest : List Input),
    let run := fun e : Input => step { s with inputs := e :: rest }
    let withEnv := fun v : Env => { s with env := v, inputs := rest }
    (∀ addr, run (.fetch addr) = .refused (.instructionFetch addr)) ∧
    (∀ v, run (.setUserSetMPend true v) = .next (withEnv { s.env with userSetMPend := v })) ∧
    (∀ v, run (.setUserSetMPend false v) = .next (withEnv s.env)) ∧
    (∀ g, run (.setPriGroup g) = .next (withEnv { s.env with priGroup := g })) ∧
    (∀ b, run (.setAcceptBelow b) = .next (withEnv { s.env with acceptBelow := b })) ∧
    run .cpsid = .next (withEnv { s.env with intDisabled := true }) ∧
    run .cpsie = .next (withEnv { s.env with intDisabled := false }) ∧
    ∀ l, ∃ t, run (.nmi l) = .next t ∧ t = withEnv { s.env with nmi := l } ∧ t.nmiOut = l ∧
      t.request = s.request ∧ ∀ n, t.mayEnter n = s.mayEnter n

/-! ## Selection -/

/-- 60_exceptions.md rules R204 and R205: the candidates are the enabled pending interrupts,
whatever their priority; a disabled interrupt is never activated (that its entry stops by name is
assumption 11); its signal pends it all the same, by a HIGH level while it is not active or by a
rising edge while it is (rule R202). -/
def Obligations.RequestIsEnabledAndPending : Prop :=
  ∀ s : State,
    (∀ n, s.request = some n →
      n < s.cfg.numIrq ∧ (s.irq n).en = true ∧ (s.irq n).pend = true) ∧
    (s.request = none ↔
      ∀ n, n < s.cfg.numIrq → ¬ ((s.irq n).en = true ∧ (s.irq n).pend = true)) ∧
    (∀ n, (s.irq n).en = false → deliver (.entry n) s = .fault (.entryNotEnabled n)) ∧
    ∀ (n : Nat) (x : Signals), n < s.cfg.numIrq → (s.irq n).en = false →
      ((s.irq n).act = false ∨ (s.irq n).line = false) → x.getLsbD n = true → ∃ t, deliver (.sample x) s = .next t ∧
        (t.irq n).pend = true ∧ (t.irq n).en = false

/-- 60_exceptions.md rule R205 (ties by the spec's decision D14): the request is the candidate of
least level, of least number among equals. -/
def Obligations.RequestIsLeast : Prop :=
  ∀ (s : State) (n : Nat), s.request = some n ↔
    (n < s.cfg.numIrq ∧ (s.irq n).en = true ∧ (s.irq n).pend = true) ∧
      ∀ m, m < s.cfg.numIrq → (s.irq m).en = true → (s.irq m).pend = true →
        (s.irq n).pri.toNat < (s.irq m).pri.toNat ∨
        ((s.irq n).pri = (s.irq m).pri ∧ n ≤ m)

/-- 60_exceptions.md rule R207 (the spec's decision D15): what may be entered is the request, of a
group priority strictly below every active one, accepted by the processor. -/
def Obligations.MayEnterCondition : Prop :=
  ∀ (s : State) (n : Nat), s.mayEnter n = true ↔
    s.request = some n ∧
    (∀ m, m < s.cfg.numIrq → (s.irq m).act = true → (s.group n).toNat < (s.group m).toNat) ∧
    s.env.intDisabled = false ∧ (s.group n).toNat < s.env.acceptBelow.val

/-- 60_exceptions.md rule R207: an active interrupt is not entered again before it returns. -/
def Obligations.MayEnterIsNotActive : Prop :=
  ∀ (s : State) (n : Nat), s.mayEnter n = true →
    (s.irq n).act = false ∧ (s.irq n).pend = true ∧ (s.irq n).en = true

/-- 60_exceptions.md rule R206 (the spec's decision D15): the table of PRIGROUP. -/
def Obligations.PriorityGrouping : Prop :=
  ∀ p : Level,
    (∀ g : BitVec 3, g.toNat ≤ 3 → groupOf g p = p ∧ subOf g p = 0) ∧
    groupOf 4 p = p >>> 1 ∧ subOf 4 p = p &&& 1 ∧
    groupOf 5 p = p >>> 2 ∧ subOf 5 p = p &&& 3 ∧
    groupOf 6 p = p >>> 3 ∧ subOf 6 p = p &&& 7 ∧
    groupOf 7 p = 0 ∧ subOf 7 p = p

/-! ## Invariants and whole-machine rules -/

/-- 60_exceptions.md rule R212: every step keeps "a signal last seen HIGH belongs to an active or
pending interrupt". -/
def Obligations.StepKeepsLevelInv : Prop :=
  ∀ s t : State, s.LevelInv → step s = .next t → t.LevelInv

/-- 10_state.md rule R51: every step keeps the places of no interrupt without state. -/
def Obligations.StepKeepsQuietInv : Prop :=
  ∀ s t : State, s.QuietInv → step s = .next t → t.QuietInv

/-- 60_exceptions.md rule R207: when no priority and no grouping is rewritten while an interrupt is
active, every step keeps the group priorities of the active interrupts pairwise different. -/
def Obligations.StepKeepsActiveGroupsDistinct : Prop :=
  ∀ (s t : State) (e : Input) (rest : List Input), s.inputs = e :: rest →
    (Input.rewritesPriority e = true → ∀ n, n < s.cfg.numIrq → (s.irq n).act = false) →
    s.ActiveGroupsDistinct → step s = .next t →
    t.ActiveGroupsDistinct

/-- 60_exceptions.md rule R207: then at most 16 interrupts are active at once. -/
def Obligations.AtMostSixteenActive : Prop :=
  ∀ s : State, s.ActiveGroupsDistinct → s.activeCount ≤ 16

/-- The three invariants hold right after reset. -/
def Obligations.ResetMeetsInvariants : Prop :=
  State.reset.LevelInv ∧ State.reset.QuietInv ∧ State.reset.ActiveGroupsDistinct

/-- 10_state.md rule R33 and 70_reset_and_hazards.md rule R251: `ACT` is set only by its entry, and
cleared only by its return or by a reset. -/
def Obligations.ActiveOnlyFromEntryToReturn : Prop :=
  ∀ (s t : State) (e : Input) (rest : List Input) (n : Nat), s.inputs = e :: rest →
    step s = .next t →
    ((s.irq n).act = false → (t.irq n).act = true → e = .entry n) ∧
    ((s.irq n).act = true → (t.irq n).act = false → (∃ l, e = .ret n l) ∨ e = .reset)

/-- 60_exceptions.md rule R203: nothing but entry, a clear-pending write and reset ends the pending
state.  That the write then found `LINE[n]` 0 is 41_pending_registers.md rule R142 by decision D17
(assumption 18). -/
def Obligations.PendingEndsOnlyBy : Prop :=
  ∀ (s t : State) (e : Input) (rest : List Input) (n : Nat), s.inputs = e :: rest →
    step s = .next t → (s.irq n).pend = true → (t.irq n).pend = false →
    e = .entry n ∨ e = .reset ∨
    ∃ x c k a d, e = .bus x ∧ (c, k) ∈ icprWrites ∧ decode x = .ok (c a d) ∧ n / 32 = k ∧
      d.getLsbD (n % 32) = true ∧ (s.irq n).line = false

/-- 10_state.md rule R31: nothing but the enable registers and reset writes `EN`. -/
def Obligations.EnableChangesOnlyByWrites : Prop :=
  ∀ (s t : State) (e : Input) (rest : List Input) (n : Nat), s.inputs = e :: rest →
    step s = .next t → (t.irq n).en ≠ (s.irq n).en →
    e = .reset ∨
    ∃ x c k a d, e = .bus x ∧ (c, k) ∈ iserWrites ++ icerWrites ∧ decode x = .ok (c a d) ∧
      n / 32 = k ∧ d.getLsbD (n % 32) = true

/-! ## Lives of an interrupt -/

/-- 60_exceptions.md rule R210: a level-sensitive interrupt still asserted when its ISR returns is
pending again and may at once be entered again; samples during the ISR do not pend it. -/
def Obligations.HeldLevelIsServicedAgain : Prop :=
  ∀ (s : State) (n : Nat) (x : Signals), n < s.cfg.numIrq → (s.irq n).act = false →
    x.getLsbD n = true → (s.sampleSignals x).mayEnter n = true →
    ∃ t u, deliverAll [.sample x, .entry n, .sample x] s = .next t ∧
      (t.irq n).pend = false ∧ (t.irq n).act = true ∧ (t.irq n).line = true ∧
      deliver (.ret n true) t = .next u ∧
      (u.irq n).pend = true ∧ (u.irq n).act = false ∧ u.mayEnter n = true

/-- 60_exceptions.md rule R211: pulses during an ISR, however many, leave one pending request after
its return; without a pulse the return leaves the interrupt inactive. -/
def Obligations.PulsesDuringIsrLeaveOneRequest : Prop :=
  ∀ (s : State) (n : Nat) (xs : List Signals), n < s.cfg.numIrq → (s.irq n).act = true →
    (s.irq n).pend = false → (s.irq n).line = false →
    ∃ t, deliverAll (xs.map Input.sample ++ [.ret n false]) s = .next t ∧
      (t.irq n).act = false ∧ (t.irq n).line = false ∧
      ((t.irq n).pend = true ↔ ∃ x ∈ xs, x.getLsbD n = true)

/-! ## CMSIS functions -/

/-- 45_cmsis_functions.md rules R176 and R177. -/
def Obligations.CmsisEnableDisable : Prop :=
  ∀ (s : State) (n : Nat), n < s.cfg.numIrq →
    (∃ t, deliver (nvicEnableIRQ n) s = .next t ∧ t.irq n = { s.irq n with en := true } ∧
      ∀ m, m ≠ n → t.irq m = s.irq m) ∧
    (∃ t, deliver (nvicDisableIRQ n) s = .next t ∧ t.irq n = { s.irq n with en := false } ∧
      ∀ m, m ≠ n → t.irq m = s.irq m)

/-- 45_cmsis_functions.md rules R178 and R179. -/
def Obligations.CmsisPending : Prop :=
  ∀ (s : State) (n : Nat), n < s.cfg.numIrq →
    (∃ t, deliver (nvicSetPendingIRQ n) s = .next t ∧ t.irq n = { s.irq n with pend := true } ∧
      ∀ m, m ≠ n → t.irq m = s.irq m) ∧
    (∃ t, deliver (nvicClearPendingIRQ n) s = .next t ∧
      t.irq n = { s.irq n with pend := (s.irq n).pend && (s.irq n).line } ∧
      ∀ m, m ≠ n → t.irq m = s.irq m)

/-- 45_cmsis_functions.md rules R180 and R183: the results are non-zero exactly when the interrupt
is pending, respectively active, and the calls change nothing. -/
def Obligations.CmsisStatusReads : Prop :=
  ∀ (s : State) (n : Nat), n < s.cfg.numIrq →
    (∃ t, deliver (nvicGetPendingIRQ n) s = .next t ∧ t.irqs = s.irqs ∧
      nonZeroResult n t.answer = (s.irq n).pend) ∧
    (∃ t, deliver (nvicGetActive n) s = .next t ∧ t.irqs = s.irqs ∧
      nonZeroResult n t.answer = (s.irq n).act)

/-- 45_cmsis_functions.md rules R181 and R182 (the spec's decision D26): the level set is the
argument modulo 16, and the level read is the present one. -/
def Obligations.CmsisPriority : Prop :=
  ∀ (s : State) (n : Nat) (p : Word), n < s.cfg.numIrq →
    (∃ t, deliver (nvicSetPriority n p) s = .next t ∧
      t.irq n = { s.irq n with pri := p.setWidth 4 } ∧ ∀ m, m ≠ n → t.irq m = s.irq m) ∧
    (∃ t, deliver (nvicGetPriority n) s = .next t ∧ t.irqs = s.irqs ∧
      priorityResult t.answer = (s.irq n).pri.setWidth 32)
end

