-- ==== Sys2Proof/Laws/Decode.lean ====
section
/-! SUPPORT. Addresses and registers, and the parts of an operation. -/

namespace Sys2Proof

/-- Register addresses are pairwise different and word aligned: no two rows of the decode table
overlap. -/
theorem register_base_injective {r q : Register} (h : r.base = q.base) : r = q := by
  cases r <;> cases q <;> first | rfl | exact absurd h (by decide)

/-- The four bytes of a register decode to it. -/
theorem registerAt_address (r : Register) (l : BitVec 2) :
    registerAt (r.base + l.setWidth 32) = some r := by
  revert l
  cases r <;> decide

/-- The byte offset of an address in a register's four bytes. -/
theorem address_lane (r : Register) (l : BitVec 2) :
    (r.base + l.setWidth 32).extractLsb' 0 2 = l := by
  revert l
  cases r <;> decide

theorem mem_registers (r : Register) : r ∈ registers := by
  cases r <;> decide

/-- An address decodes to a register exactly when its word is the register's. -/
theorem registerAt_eq_some {addr : Word} {r : Register} :
    registerAt addr = some r ↔ addr &&& 0xFFFFFFFC = r.base := by
  constructor
  · intro h
    simpa [Register.owns] using List.find?_some h
  · intro h
    have hr : r.owns addr = true := by simpa [Register.owns] using h
    have hsome : (registers.find? (·.owns addr)).isSome = true :=
      List.find?_isSome.mpr ⟨r, mem_registers r, hr⟩
    obtain ⟨q, hq⟩ := Option.isSome_iff_exists.mp hsome
    have hq2 : addr &&& 0xFFFFFFFC = q.base := by
      simpa [Register.owns] using List.find?_some hq
    rw [registerAt, hq, register_base_injective (hq2.symm.trans h)]

@[simp] theorem Instr.parts_read (r : Register) (a : Access) :
    (Instr.read r a).parts = (r, a, none) := by cases r <;> rfl

@[simp] theorem Instr.parts_write (r : Register) (a : Access) (d : Word) :
    (Instr.write r a d).parts = (r, a, some d) := by cases r <;> rfl

/-- An operation without write data is its register's read. -/
theorem Instr.eq_read {i : Instr} (h : i.writeData = none) : i = Instr.read i.register i.access := by
  cases i <;> first | rfl | exact absurd h (by simp [Instr.writeData, Instr.parts])

/-- An operation with write data is its register's write. -/
theorem Instr.eq_write {i : Instr} {d : Word} (h : i.writeData = some d) :
    i = Instr.write i.register i.access d := by
  cases i <;> first
    | (obtain rfl : _ = d := by simpa [Instr.writeData, Instr.parts] using h
       rfl)
    | exact absurd h (by simp [Instr.writeData, Instr.parts])

/-- Write data inside its `8*size` bits is carried whole. -/
theorem carried_of_fits {size : Nat} {d : Word} (h : d.toNat < 2 ^ (8 * min size 4)) :
    carried size d = d := by
  unfold carried
  split
  · apply BitVec.eq_of_toNat_eq; simp at h; simp [h]
  · apply BitVec.eq_of_toNat_eq
    rw [BitVec.toNat_and, show (0xFF : Word).toNat = 2 ^ 8 - 1 from rfl,
      Nat.and_two_pow_sub_one_eq_mod, Nat.mod_eq_of_lt (by simpa using h)]
  · apply BitVec.eq_of_toNat_eq
    rw [BitVec.toNat_and, show (0xFFFF : Word).toNat = 2 ^ 16 - 1 from rfl,
      Nat.and_two_pow_sub_one_eq_mod, Nat.mod_eq_of_lt (by simpa using h)]
  · apply BitVec.eq_of_toNat_eq
    rw [BitVec.toNat_and, show (0xFFFFFF : Word).toNat = 2 ^ 24 - 1 from rfl,
      Nat.and_two_pow_sub_one_eq_mod, Nat.mod_eq_of_lt (by simpa using h)]
  · rfl

end Sys2Proof
end

