-- ==== Sys2Proof/Laws/State.lean ====
section
/-! SUPPORT. What each update of the state leaves and what it makes of each interrupt. -/

namespace Sys2Proof.Machine

variable (s : State) (f : Nat → Irq → Irq) (g : Irq → Irq) (n m : Nat) (a : Answer)

/-! ## The single update of the interrupts -/

@[simp] theorem State.mapIrqs_cfg : (s.mapIrqs f).cfg = s.cfg := rfl
@[simp] theorem State.mapIrqs_env : (s.mapIrqs f).env = s.env := rfl
@[simp] theorem State.mapIrqs_answer : (s.mapIrqs f).answer = s.answer := rfl
@[simp] theorem State.mapIrqs_freeCtr : (s.mapIrqs f).freeCtr = s.freeCtr := rfl
@[simp] theorem State.mapIrqs_inputs : (s.mapIrqs f).inputs = s.inputs := rfl
@[simp] theorem State.mapIrqs_implemented : (s.mapIrqs f).implemented n = s.implemented n := rfl

theorem State.implemented_iff {s : State} {n : Nat} :
    s.implemented n = true ↔ n < s.cfg.numIrq := decide_eq_true_iff

/-- Every implemented number is below 81. -/
theorem State.lt_of_implemented {s : State} {n : Nat} (h : s.implemented n = true) : n < 81 := by
  have hn : n < s.cfg.lastIrq.val + 1 := of_decide_eq_true h
  have hl := s.cfg.lastIrq.isLt
  omega

theorem State.irq_of_lt (h : n < 81) : s.irq n = s.irqs[n] := by
  simp [State.irq, h]

theorem State.irq_of_ge (h : 81 ≤ n) : s.irq n = Irq.reset := by
  simp [State.irq, h]

/-- An update gives each implemented interrupt its function's value and leaves the rest. -/
@[simp] theorem State.irq_mapIrqs :
    (s.mapIrqs f).irq n = if s.implemented n then f n (s.irq n) else s.irq n := by
  by_cases h : n < 81
  · simp [State.irq_of_lt, h, State.mapIrqs]
  · have hn : s.implemented n = false := by
      by_contra hc
      exact h (State.lt_of_implemented (by simpa using hc))
    simp [State.irq_of_ge, Nat.le_of_not_lt h, hn]

/-- Two states with the same components of every interrupt hold the same table. -/
theorem State.irqs_ext {s t : State} (h : ∀ n, n < 81 → s.irq n = t.irq n) : s.irqs = t.irqs := by
  ext1 i hi
  have := h i hi
  rwa [State.irq_of_lt _ _ hi, State.irq_of_lt _ _ hi] at this

/-! ## Updates of one interrupt -/

@[simp] theorem State.updateIrq_cfg : (s.updateIrq n g).cfg = s.cfg := rfl
@[simp] theorem State.updateIrq_env : (s.updateIrq n g).env = s.env := rfl
@[simp] theorem State.updateIrq_answer : (s.updateIrq n g).answer = s.answer := rfl
@[simp] theorem State.updateIrq_freeCtr : (s.updateIrq n g).freeCtr = s.freeCtr := rfl
@[simp] theorem State.updateIrq_inputs : (s.updateIrq n g).inputs = s.inputs := rfl
@[simp] theorem State.updateIrq_implemented :
    (s.updateIrq n g).implemented m = s.implemented m := rfl

@[simp] theorem State.irq_updateIrq :
    (s.updateIrq n g).irq m =
      if s.implemented m = true ∧ m = n then g (s.irq m) else s.irq m := by
  simp only [State.updateIrq, State.irq_mapIrqs]
  by_cases h1 : s.implemented m = true <;> by_cases h2 : m = n <;> simp [h1, h2]

/-! ## Answers and free values -/

@[simp] theorem State.respond_cfg : (s.respond a).cfg = s.cfg := rfl
@[simp] theorem State.respond_env : (s.respond a).env = s.env := rfl
@[simp] theorem State.respond_irqs : (s.respond a).irqs = s.irqs := rfl
@[simp] theorem State.respond_answer : (s.respond a).answer = some a := rfl
@[simp] theorem State.respond_freeCtr : (s.respond a).freeCtr = s.freeCtr := rfl
@[simp] theorem State.respond_inputs : (s.respond a).inputs = s.inputs := rfl
@[simp] theorem State.respond_irq : (s.respond a).irq n = s.irq n := rfl
@[simp] theorem State.respond_implemented : (s.respond a).implemented n = s.implemented n := rfl

@[simp] theorem State.drawn_cfg : s.drawn.cfg = s.cfg := rfl
@[simp] theorem State.drawn_env : s.drawn.env = s.env := rfl
@[simp] theorem State.drawn_irqs : s.drawn.irqs = s.irqs := rfl
@[simp] theorem State.drawn_answer : s.drawn.answer = s.answer := rfl
@[simp] theorem State.drawn_freeCtr : s.drawn.freeCtr = s.freeCtr + 1 := rfl
@[simp] theorem State.drawn_inputs : s.drawn.inputs = s.inputs := rfl
@[simp] theorem State.drawn_irq : s.drawn.irq n = s.irq n := rfl
@[simp] theorem State.drawn_implemented : s.drawn.implemented n = s.implemented n := rfl

/-! ## Inputs -/

@[simp] theorem State.with_env_irq (e : Env) : ({ s with env := e } : State).irq n = s.irq n := rfl
@[simp] theorem State.with_env_implemented (e : Env) :
    ({ s with env := e } : State).implemented n = s.implemented n := rfl
@[simp] theorem State.with_inputs_irq (l : List Input) :
    ({ s with inputs := l } : State).irq n = s.irq n := rfl
@[simp] theorem State.with_inputs_implemented (l : List Input) :
    ({ s with inputs := l } : State).implemented n = s.implemented n := rfl

/-! ## Reset -/

@[simp] theorem State.reset_irq : State.reset.irq n = Irq.reset := by
  by_cases h : n < 81
  · simp [State.irq_of_lt, h, State.reset]
  · exact State.irq_of_ge _ _ (Nat.le_of_not_lt h)

end Sys2Proof.Machine
end

