-- ==== Sys2Proof/Laws/Operands.lean ====
section
/-! SUPPORT. What the checks of an access decide, and the bits and bytes of register values. -/

namespace Sys2Proof.Machine

/-! ## Checks -/

/-- Everything a checked access can do when it answers a next state. -/
theorem checked_next_iff {p : Bool} {r : Option Refusal} {s t : State}
    {run : Host.Outcome State Fault Refusal} :
    checked p r s run = .next t ↔
      (p = false ∧ t = s.respond .accessFault) ∨ (p = true ∧ r = none ∧ run = .next t) := by
  cases p <;> cases r <;> simp [checked, eq_comm]

/-- No check of an access raises a fault. -/
theorem checked_fault {p : Bool} {r : Option Refusal} {s : State}
    {run : Host.Outcome State Fault Refusal} {x : Fault} (h : checked p r s run = .fault x) :
    run = .fault x := by
  cases p <;> cases r <;> simp_all [checked]

@[simp] theorem checked_ok (s : State) (run : Host.Outcome State Fault Refusal) :
    checked true none s run = run := rfl

@[simp] theorem checked_denied (r : Option Refusal) (s : State)
    (run : Host.Outcome State Fault Refusal) :
    checked false r s run = .next (s.respond .accessFault) := rfl

@[simp] theorem checked_unsupported (x : Refusal) (s : State)
    (run : Host.Outcome State Fault Refusal) : checked true (some x) s run = .refused x := rfl

theorem wordFormat_eq_none {a : Access} : wordFormat a = none ↔ a.size = 4 ∧ a.lane = 0 := by
  unfold wordFormat
  split <;> [split; skip] <;> simp_all

theorem lanesFormat_eq_none {a : Access} :
    lanesFormat a = none ↔
      (a.size = 1 ∨ a.size = 2 ∨ a.size = 4) ∧ a.lane.toNat % a.size = 0 := by
  unfold lanesFormat
  split <;> [split; skip] <;> simp_all

/-! ## Registers with one bit for each interrupt -/

/-- Bit `i` of the value shows interrupt `32k + i`, and 0 where there is none. -/
theorem bitsValue_getLsbD (k : Nat) (show1 : Irq → Bool) (s : State) (i : Nat) :
    (bitsValue k show1 s).getLsbD i =
      (decide (i < 32) && s.implemented (32 * k + i) && show1 (s.irq (32 * k + i))) := by
  unfold bitsValue
  by_cases h : i < 32
  · simp [h]
  · simp [h, BitVec.getLsbD_of_ge _ _ (Nat.le_of_not_lt h)]

/-- The value depends on the shown bit of the interrupts alone. -/
theorem bitsValue_congr {k : Nat} {show1 : Irq → Bool} {s t : State} (hc : s.cfg = t.cfg)
    (h : ∀ n, show1 (s.irq n) = show1 (t.irq n)) : bitsValue k show1 s = bitsValue k show1 t := by
  simp [bitsValue, State.implemented, hc, h]

/-! ## Priority fields -/

/-- Byte `j` of the value of an access. -/
theorem fieldsValue_byte (s : State) (n0 size j : Nat) (h : j < 4) :
    (fieldsValue s n0 size).extractLsb' (8 * j) 8 = laneValue s n0 size j := by
  apply BitVec.eq_of_getLsbD_eq
  intro i hi
  rw [BitVec.getLsbD_extractLsb']
  change (decide (i < 8) && (laneValue s n0 size 3 ++ laneValue s n0 size 2 ++
    laneValue s n0 size 1 ++ laneValue s n0 size 0).getLsbD (8 * j + i)) = _
  simp only [BitVec.getLsbD_append]
  obtain rfl | rfl | rfl | rfl : j = 0 ∨ j = 1 ∨ j = 2 ∨ j = 3 := by omega
  · simp [hi]
  · simp [hi, show ¬ 8 + i < 8 by omega]
  · simp [hi, show ¬ 16 + i < 8 by omega, show ¬ 16 + i - 8 < 8 by omega,
      show 16 + i - 8 - 8 = i by omega]
  · simp [hi, show ¬ 24 + i < 8 by omega, show ¬ 24 + i - 8 < 8 by omega,
      show ¬ 24 + i - 8 - 8 < 8 by omega, show 24 + i - 8 - 8 - 8 = i by omega]

end Sys2Proof.Machine
end

