-- ==== Sys2Proof/Laws/Exec.lean ====
section
/-! SUPPORT. Everything an operation can do when it answers a next state: each interrupt is left
or gets the one change the operation's register stands for, and the environment, the device and the
script are left. -/

namespace Sys2Proof.Machine

/-- The changes that a write to a register can make to one interrupt. -/
def Register.Allows (r : Register) (q q' : Irq) : Prop :=
  match r with
  | .iser0 | .iser1 | .iser2 => q' = q ∨ q' = q.enabled
  | .icer0 | .icer1 | .icer2 => q' = q ∨ q' = q.disabled
  | .ispr0 | .ispr1 | .ispr2 | .stir => q' = q ∨ q' = q.pended
  | .icpr0 | .icpr1 | .icpr2 => q' = q ∨ q' = q.unpended
  | .iabr0 | .iabr1 | .iabr2 => q' = q
  | .ipr0 | .ipr1 | .ipr2 | .ipr3 | .ipr4 | .ipr5 | .ipr6 | .ipr7 | .ipr8 | .ipr9 | .ipr10
  | .ipr11 | .ipr12 | .ipr13 | .ipr14 | .ipr15 | .ipr16 | .ipr17 | .ipr18 | .ipr19 | .ipr20 =>
    q' = q ∨ ∃ p, q' = q.reprioritized p

theorem Register.allows_self (r : Register) (q : Irq) : Register.Allows r q q := by
  cases r <;> simp [Register.Allows]

/-- What a next state of an operation keeps: everything but the interrupts, the answer and the count
of free values; the places of no interrupt; and each interrupt but for its register's change. -/
structure Touched (i : Instr) (s t : State) : Prop where
  cfg : t.cfg = s.cfg
  env : t.env = s.env
  inputs : t.inputs = s.inputs
  answered : t.answer.isSome = true
  quiet : ∀ n, s.implemented n = false → t.irq n = s.irq n
  allowed : ∀ n, Register.Allows i.register (s.irq n) (t.irq n)
  reads : i.writeData = none → t.irqs = s.irqs

/-- An answer alone touches nothing. -/
theorem Touched.respond (i : Instr) (s : State) (a : Answer) : Touched i s (s.respond a) :=
  ⟨rfl, rfl, rfl, rfl, fun _ _ => rfl, fun _ => Register.allows_self _ _, fun _ => rfl⟩

/-- A pointwise update by an allowed change touches only that. -/
theorem Touched.update (i : Instr) (s : State) (f : Nat → Irq → Irq) (a : Answer)
    (hw : i.writeData ≠ none) (h : ∀ n q, Register.Allows i.register q (f n q)) :
    Touched i s ((s.mapIrqs f).respond a) := by
  refine ⟨rfl, rfl, rfl, rfl, fun n hn => by simp [hn], fun n => ?_, fun hc => absurd hc hw⟩
  by_cases hn : s.implemented n = true
  · simpa [hn] using h n (s.irq n)
  · simpa [hn] using Register.allows_self i.register (s.irq n)

theorem touched_readBits {i : Instr} {k : Nat} {sh : Irq → Bool} {a : Access} {s t : State}
    (h : readBits k sh a s = .next t) : Touched i s t := by
  obtain ⟨-, rfl⟩ | ⟨-, -, h⟩ := checked_next_iff.mp h
  · exact Touched.respond i s _
  · cases h; exact Touched.respond i s _

theorem touched_writeBits {i : Instr} {k : Nat} {f : Irq → Irq} {a : Access} {d : Word} {s t : State}
    (h : writeBits k f a d s = .next t) (hw : i.writeData ≠ none)
    (hf : ∀ q, Register.Allows i.register q (f q)) : Touched i s t := by
  obtain ⟨-, rfl⟩ | ⟨-, -, h⟩ := checked_next_iff.mp h
  · exact Touched.respond i s _
  · cases h
    refine Touched.update i s _ _ hw fun n q => ?_
    by_cases hs : selected k d n = true
    · simpa [hs] using hf q
    · simpa [hs] using Register.allows_self i.register q

theorem touched_ignoredWrite {i : Instr} {a : Access} {d : Word} {s t : State}
    (h : ignoredWrite a d s = .next t) : Touched i s t := by
  obtain ⟨-, rfl⟩ | ⟨-, -, h⟩ := checked_next_iff.mp h
  · exact Touched.respond i s _
  · cases h; exact Touched.respond i s _

theorem touched_readPriority {i : Instr} {m : Nat} {a : Access} {s t : State}
    (h : readPriority m a s = .next t) : Touched i s t := by
  obtain ⟨-, rfl⟩ | ⟨-, -, h⟩ := checked_next_iff.mp h
  · exact Touched.respond i s _
  · cases h; exact Touched.respond i s _

theorem touched_writePriority {i : Instr} {m : Nat} {a : Access} {d : Word} {s t : State}
    (h : writePriority m a d s = .next t) (hw : i.writeData ≠ none)
    (hf : ∀ q p, Register.Allows i.register q (Irq.reprioritized p q)) : Touched i s t := by
  obtain ⟨-, rfl⟩ | ⟨-, -, h⟩ := checked_next_iff.mp h
  · exact Touched.respond i s _
  · cases h
    refine Touched.update i s _ _ hw fun n q => ?_
    unfold writeFields
    split
    · exact hf q _
    · exact Register.allows_self i.register q

theorem touched_rdStir {a : Access} {s t : State} (h : execRdStir a s = .next t) :
    Touched (.rdStir a) s t := by
  obtain ⟨-, rfl⟩ | ⟨-, -, h⟩ := checked_next_iff.mp h
  · exact Touched.respond _ s _
  · cases h
    exact ⟨rfl, rfl, rfl, rfl, fun _ _ => rfl, fun _ => Register.allows_self _ _, fun _ => rfl⟩

theorem touched_wrStir {a : Access} {d : Word} {s t : State} (h : execWrStir a d s = .next t) :
    Touched (.wrStir a d) s t := by
  obtain ⟨-, rfl⟩ | ⟨-, -, h⟩ := checked_next_iff.mp h
  · exact Touched.respond _ s _
  · split at h
    · cases h
      refine Touched.update _ s _ _ (by simp [Instr.writeData, Instr.parts]) fun n q => ?_
      split <;> simp [Register.Allows, Instr.register, Instr.parts]
    · cases h

/-- Every operation that answers a next state has touched only what its register allows. -/
theorem exec_touched {i : Instr} {s t : State} (h : exec i s = .next t) : Touched i s t := by
  cases i
  case wrStir => exact touched_wrStir h
  case rdStir => exact touched_rdStir h
  case wrIabr0 a d => exact touched_ignoredWrite (a := a) (d := d) h
  case wrIabr1 a d => exact touched_ignoredWrite (a := a) (d := d) h
  case wrIabr2 a d => exact touched_ignoredWrite (a := a) (d := d) h
  all_goals first
    | exact touched_readBits h
    | exact touched_readPriority h
    | exact touched_writeBits h (by simp [Instr.writeData, Instr.parts])
        (fun q => by simp [Register.Allows, Instr.register, Instr.parts])
    | exact touched_writePriority h (by simp [Instr.writeData, Instr.parts])
        (fun q p => .inr ⟨p, rfl⟩)

/-! ## Every operation is a checked access -/

/-- The privilege check of an operation (20_memory.md rule R78, 44_software_trigger.md rule R167). -/
def permitted (i : Instr) (s : State) : Bool :=
  if i.register = .stir then stirPermitted i.access s else i.access.priv

/-- What is wrong with an operation's size or alignment, if anything. -/
def formatOf (i : Instr) : Option Refusal :=
  if i.register.byteAccessible then lanesFormat i.access else wordFormat i.access

theorem formatOf_eq_none {i : Instr} : formatOf i = none ↔ i.formatOk = true := by
  unfold formatOf Instr.formatOk
  cases i.register.byteAccessible
  · simp [wordFormat_eq_none, Access.isWord]
  · simp [lanesFormat_eq_none, Access.isLanes, or_assoc]

/-- The only reasons a format check refuses for. -/
theorem formatOf_some {i : Instr} {x : Refusal} (h : formatOf i = some x) :
    x = .unsupportedSize i.access.size ∨ x = .unaligned i.access.size i.access.lane := by
  unfold formatOf wordFormat lanesFormat at h
  split_ifs at h <;> simp_all

theorem stirReservedClear_iff {d : Word} : stirReservedClear d = true ↔ d.toNat < 512 := by
  simp only [stirReservedClear, beq_iff_eq, ← BitVec.toNat_inj, BitVec.extractLsb'_toNat,
    BitVec.ofNat_eq_ofNat, BitVec.toNat_ofNat, Nat.shiftRight_eq_div_pow]
  have := d.isLt
  omega

/-- An operation checks its privilege, then its format, and then runs: to a next state, but for a
write to STIR with reserved bits set. -/
theorem exec_checked (i : Instr) (s : State) :
    ∃ run, exec i s = checked (permitted i s) (formatOf i) s run ∧
      (i.reservedClear = true → ∃ t, run = .next t) ∧
      (i.reservedClear = false → ∃ d, i.writeData = some d ∧
        run = .refused (.reservedStirBits d)) := by
  cases i
  case wrStir a d =>
    refine ⟨_, rfl, fun h => ?_, fun h => ⟨d, rfl, ?_⟩⟩
    · have hd : stirReservedClear d = true := stirReservedClear_iff.mpr (of_decide_eq_true h)
      exact ⟨_, by rw [hd]⟩
    · have hd : stirReservedClear d = false := by
        rw [Bool.eq_false_iff]
        exact fun hc => of_decide_eq_false h (stirReservedClear_iff.mp hc)
      rw [hd]
  all_goals exact ⟨_, rfl, fun _ => ⟨_, rfl⟩, fun h => Bool.noConfusion h⟩

/-- No operation raises a fault. -/
theorem exec_no_fault {i : Instr} {s : State} {x : Fault} : exec i s ≠ .fault x := by
  intro h
  cases i
  case wrStir =>
    have h2 := checked_fault h
    split at h2 <;> cases h2
  all_goals cases checked_fault h

end Sys2Proof.Machine
end

