-- ==== Sys2Proof/Laws/Select.lean ====
section
/-! SUPPORT. What the two scans of the selection find. -/

namespace Sys2Proof.Machine

variable {s : State}

/-- The scan finds nothing exactly when there is no candidate below its bound. -/
theorem bestBelow_eq_none {k : Nat} :
    s.bestBelow k = none ↔ ∀ n, n < k → s.candidate n = false := by
  induction k with
  | zero => simp [State.bestBelow]
  | succ k ih =>
    simp only [State.bestBelow]
    cases hb : s.bestBelow k with
    | none =>
      have hk := ih.mp hb
      cases hc : s.candidate k with
      | true => simpa using ⟨k, by omega, hc⟩
      | false =>
        simp only [Bool.false_eq_true, ite_false, true_iff]
        intro n hn
        rcases Nat.lt_succ_iff_lt_or_eq.mp hn with h | rfl
        · exact hk n h
        · exact hc
    | some b =>
      have hne : ¬ ∀ n, n < k + 1 → s.candidate n = false := fun h => by
        have := ih.mpr fun n hn => h n (by omega)
        simp [hb] at this
      simp only [hne, iff_false]
      split <;> simp

/-- What the scan finds is the candidate of least level, and of least number among equals. -/
theorem bestBelow_some {k n : Nat} (h : s.bestBelow k = some n) :
    n < k ∧ s.candidate n = true ∧
      ∀ m, m < k → s.candidate m = true →
        (s.irq n).pri < (s.irq m).pri ∨ ((s.irq n).pri = (s.irq m).pri ∧ n ≤ m) := by
  induction k generalizing n with
  | zero => simp [State.bestBelow] at h
  | succ k ih =>
    simp only [State.bestBelow] at h
    cases hb : s.bestBelow k with
    | none =>
      rw [hb] at h
      have hnone := bestBelow_eq_none.mp hb
      cases hc : s.candidate k with
      | false => simp [hc] at h
      | true =>
        simp only [hc, ite_true, Option.some.injEq] at h
        subst h
        refine ⟨by omega, hc, fun m hm hcm => ?_⟩
        rcases Nat.lt_succ_iff_lt_or_eq.mp hm with hlt | rfl
        · simp [hnone m hlt] at hcm
        · exact .inr ⟨rfl, le_refl _⟩
    | some b =>
      obtain ⟨hbk, hcb, hmin⟩ := ih hb
      simp only [hb, Bool.and_eq_true, decide_eq_true_eq] at h
      by_cases hk : s.candidate k = true ∧ (s.irq k).pri < (s.irq b).pri
      · rw [if_pos hk, Option.some.injEq] at h
        subst h
        refine ⟨by omega, hk.1, fun m hm hcm => ?_⟩
        rcases Nat.lt_succ_iff_lt_or_eq.mp hm with hlt | rfl
        · rcases hmin m hlt hcm with h1 | ⟨h1, _⟩
          · exact .inl (BitVec.lt_trans hk.2 h1)
          · exact .inl (h1 ▸ hk.2)
        · exact .inr ⟨rfl, le_refl _⟩
      · rw [if_neg hk, Option.some.injEq] at h
        subst h
        refine ⟨by omega, hcb, fun m hm hcm => ?_⟩
        rcases Nat.lt_succ_iff_lt_or_eq.mp hm with hlt | rfl
        · exact hmin m hlt hcm
        · have hge : ¬ (s.irq m).pri < (s.irq b).pri := fun hlt => hk ⟨hcm, hlt⟩
          rcases Nat.lt_or_eq_of_le (BitVec.not_lt.mp hge) with h1 | h1
          · exact .inl h1
          · exact .inr ⟨BitVec.eq_of_toNat_eq h1, by omega⟩

/-- The scan for the active group finds none exactly when no interrupt is active. -/
theorem activeGroupBelow_eq_none {k : Nat} :
    s.activeGroupBelow k = none ↔
      ∀ n, n < k → s.implemented n = true → (s.irq n).act = false := by
  induction k with
  | zero => simp [State.activeGroupBelow]
  | succ k ih =>
    simp only [State.activeGroupBelow]
    by_cases hk : s.implemented k = true ∧ (s.irq k).act = true
    · simp only [hk.1, hk.2, Bool.and_self, ite_true]
      constructor
      · intro h
        cases hb : s.activeGroupBelow k <;> simp [hb] at h
      · intro h
        simp [h k (by omega) hk.1] at hk
    · rw [if_neg (by simpa [Bool.and_eq_true] using hk), ih]
      constructor
      · intro h n hn hi
        rcases Nat.lt_succ_iff_lt_or_eq.mp hn with hlt | rfl
        · exact h n hlt hi
        · by_contra hc
          exact hk ⟨hi, by simpa using hc⟩
      · exact fun h n hn => h n (by omega)

/-- What the scan finds is below or equal to the group priority of every active interrupt, and is
that of one of them. -/
theorem activeGroupBelow_some {k : Nat} {g : Level} (h : s.activeGroupBelow k = some g) :
    (∃ n, n < k ∧ s.implemented n = true ∧ (s.irq n).act = true ∧ s.group n = g) ∧
      ∀ n, n < k → s.implemented n = true → (s.irq n).act = true → g ≤ s.group n := by
  induction k generalizing g with
  | zero => simp [State.activeGroupBelow] at h
  | succ k ih =>
    simp only [State.activeGroupBelow] at h
    by_cases hk : s.implemented k = true ∧ (s.irq k).act = true
    · simp only [hk.1, hk.2, Bool.and_self, ite_true] at h
      cases hb : s.activeGroupBelow k with
      | none =>
        simp only [hb, Option.some.injEq] at h
        subst h
        refine ⟨⟨k, by omega, hk.1, hk.2, rfl⟩, fun n hn hi ha => ?_⟩
        rcases Nat.lt_succ_iff_lt_or_eq.mp hn with hlt | rfl
        · simp [activeGroupBelow_eq_none.mp hb n hlt hi] at ha
        · exact BitVec.le_refl _
      | some b =>
        obtain ⟨⟨n0, h0k, h0i, h0a, h0g⟩, hmin⟩ := ih hb
        simp only [hb, Option.some.injEq] at h
        by_cases hlt : s.group k < b
        · rw [if_pos hlt] at h
          subst h
          refine ⟨⟨k, by omega, hk.1, hk.2, rfl⟩, fun n hn hi ha => ?_⟩
          rcases Nat.lt_succ_iff_lt_or_eq.mp hn with hnk | rfl
          · exact BitVec.le_trans (BitVec.le_of_lt hlt) (hmin n hnk hi ha)
          · exact BitVec.le_refl _
        · rw [if_neg hlt] at h
          subst h
          refine ⟨⟨n0, by omega, h0i, h0a, h0g⟩, fun n hn hi ha => ?_⟩
          rcases Nat.lt_succ_iff_lt_or_eq.mp hn with hnk | rfl
          · exact hmin n hnk hi ha
          · exact BitVec.not_lt.mp hlt
    · rw [if_neg (by simpa [Bool.and_eq_true] using hk)] at h
      obtain ⟨⟨n0, h0k, h0i, h0a, h0g⟩, hmin⟩ := ih h
      refine ⟨⟨n0, by omega, h0i, h0a, h0g⟩, fun n hn hi ha => ?_⟩
      rcases Nat.lt_succ_iff_lt_or_eq.mp hn with hnk | rfl
      · exact hmin n hnk hi ha
      · exact absurd ⟨hi, ha⟩ hk

/-! ## The selection depends on the device, the interrupts and the inputs alone -/

theorem bestBelow_mk (c : Config) (q : Vector Irq 81) (e e' : Env) (a a' : Option Answer)
    (f f' : Nat) (l l' : List Input) (k : Nat) :
    (State.mk c q e a f l).bestBelow k = (State.mk c q e' a' f' l').bestBelow k := by
  induction k with
  | zero => rfl
  | succ k ih => simp only [State.bestBelow, ih]; rfl

theorem activeGroupBelow_mk (c : Config) (q : Vector Irq 81) (e e' : Env) (a a' : Option Answer)
    (f f' : Nat) (l l' : List Input) (k : Nat) (he : e.priGroup = e'.priGroup) :
    (State.mk c q e a f l).activeGroupBelow k = (State.mk c q e' a' f' l').activeGroupBelow k := by
  have hg : ∀ n, (State.mk c q e a f l).group n = (State.mk c q e' a' f' l').group n := by
    intro n; simp only [State.group, he]; rfl
  induction k with
  | zero => rfl
  | succ k ih => simp only [State.activeGroupBelow, ih, hg]; rfl

theorem request_congr {t : State} (hc : t.cfg = s.cfg) (hi : t.irqs = s.irqs) :
    t.request = s.request := by
  cases t; cases s; cases hc; cases hi
  exact bestBelow_mk ..

theorem activeGroup_congr {t : State} (hc : t.cfg = s.cfg) (hi : t.irqs = s.irqs)
    (he : t.env.priGroup = s.env.priGroup) : t.activeGroup = s.activeGroup := by
  cases t; cases s; cases hc; cases hi
  exact activeGroupBelow_mk _ _ _ _ _ _ _ _ _ _ _ he

theorem mayEnter_congr {t : State} {n : Nat} (hc : t.cfg = s.cfg) (hi : t.irqs = s.irqs)
    (he : t.env = s.env) : t.mayEnter n = s.mayEnter n := by
  have hr := request_congr hc hi
  have ha := activeGroup_congr hc hi (congrArg Env.priGroup he)
  have hg : t.group n = s.group n := by simp only [State.group, State.irq, hi, he]
  simp only [State.mayEnter, hr, ha, hg, State.coreAccepts, he]

@[simp] theorem State.with_inputs_mayEnter (l : List Input) (n : Nat) :
    ({ s with inputs := l } : State).mayEnter n = s.mayEnter n := mayEnter_congr rfl rfl rfl

/-- What `may_enter(n)` asks, with the preemption condition said of each active interrupt. -/
theorem mayEnter_iff {n : Nat} :
    s.mayEnter n = true ↔ s.request = some n ∧
      (∀ a, s.implemented a = true → (s.irq a).act = true → s.group n < s.group a) ∧
      s.coreAccepts (s.group n) = true := by
  simp only [State.mayEnter, Bool.and_eq_true, beq_iff_eq, and_assoc]
  refine and_congr_right fun _ => and_congr_left fun _ => ?_
  cases hg : s.activeGroup with
  | none =>
    simp only [true_iff]
    intro a hi ha
    simp [activeGroupBelow_eq_none.mp hg a (State.lt_of_implemented hi) hi] at ha
  | some g =>
    obtain ⟨⟨n0, _, h0i, h0a, h0g⟩, hmin⟩ := activeGroupBelow_some hg
    simp only [decide_eq_true_eq]
    constructor
    · exact fun h a hi ha => Nat.lt_of_lt_of_le h (hmin a (State.lt_of_implemented hi) hi ha)
    · exact fun h => h0g ▸ h n0 h0i h0a

end Sys2Proof.Machine
end

