-- ==== Sys2Proof/Laws/Events.lean ====
section
/-! SUPPORT. Everything a delivered input and a step can do when they answer a next state. -/

namespace Sys2Proof.Machine

@[simp] theorem State.irq_sampleSignals (s : State) (x : Signals) (n : Nat) :
    (s.sampleSignals x).irq n =
      if s.implemented n then (s.irq n).sampled (x.getLsbD n) else s.irq n := by
  simp [State.sampleSignals]

@[simp] theorem State.irq_resetIrqs (s : State) (n : Nat) :
    s.resetIrqs.irq n = if s.implemented n then Irq.reset else s.irq n := by
  simp [State.resetIrqs]

@[simp] theorem State.irq_enterIsr (s : State) (n m : Nat) :
    (s.enterIsr n).irq m =
      if s.implemented m = true ∧ m = n then (s.irq m).entered else s.irq m := by
  simp [State.enterIsr]

@[simp] theorem State.irq_returnFromIsr (s : State) (n m : Nat) (l : Bool) :
    (s.returnFromIsr n l).irq m =
      if s.implemented m = true ∧ m = n then (s.irq m).returned l else s.irq m := by
  simp [State.returnFromIsr]

theorem transact_next {t : Transaction} {s s' : State} (h : transact t s = .next s') :
    ∃ i, decode t = .ok i ∧ exec i s = .next s' := by
  unfold transact at h
  split at h
  · exact ⟨_, ‹_›, h⟩
  · cases h

theorem enter_next {n : Nat} {s s' : State} (h : enter n s = .next s') :
    s.mayEnter n = true ∧ s' = s.enterIsr n := by
  unfold enter at h
  split at h
  · cases h; exact ⟨‹_›, rfl⟩
  · cases h

theorem leave_next {n : Nat} {l : Bool} {s s' : State} (h : leave n l s = .next s') :
    s.implemented n = true ∧ (s.irq n).act = true ∧ s' = s.returnFromIsr n l := by
  unfold leave at h
  split at h
  case h_1 hc =>
    cases h
    simp only [Bool.and_eq_true] at hc
    exact ⟨hc.1, hc.2, rfl⟩
  case h_2 => cases h

/-- Everything a delivered input can do: one operation, one of the four events, or a change of the
environment alone. -/
theorem deliver_next {e : Input} {s s' : State} (h : deliver e s = .next s') :
    (∃ t i, e = .bus t ∧ decode t = .ok i ∧ exec i s = .next s') ∨
    (∃ x, e = .sample x ∧ s' = s.sampleSignals x) ∨
    (∃ n, e = .entry n ∧ s.mayEnter n = true ∧ s' = s.enterIsr n) ∨
    (∃ n l, e = .ret n l ∧ s.implemented n = true ∧ (s.irq n).act = true ∧
      s' = s.returnFromIsr n l) ∨
    (e = .reset ∧ s' = s.resetIrqs) ∨
    (∃ v, s' = { s with env := v } ∧ ((∀ g, e ≠ .setPriGroup g) → v.priGroup = s.env.priGroup)) := by
  cases e with
  | bus t =>
    obtain ⟨i, hd, hx⟩ := transact_next h
    exact .inl ⟨t, i, rfl, hd, hx⟩
  | fetch _ => cases h
  | sample x => cases h; exact .inr (.inl ⟨x, rfl, rfl⟩)
  | entry n =>
    obtain ⟨hm, rfl⟩ := enter_next h
    exact .inr (.inr (.inl ⟨n, rfl, hm, rfl⟩))
  | ret n l =>
    obtain ⟨hi, ha, rfl⟩ := leave_next h
    exact .inr (.inr (.inr (.inl ⟨n, l, rfl, hi, ha, rfl⟩)))
  | reset => cases h; exact .inr (.inr (.inr (.inr (.inl ⟨rfl, rfl⟩))))
  | setUserSetMPend p v =>
    cases h
    cases p
    · exact .inr (.inr (.inr (.inr (.inr ⟨s.env, rfl, fun _ => rfl⟩))))
    · exact .inr (.inr (.inr (.inr (.inr ⟨_, rfl, fun _ => rfl⟩))))
  | setPriGroup g =>
    cases h
    exact .inr (.inr (.inr (.inr (.inr ⟨_, rfl, fun hc => absurd rfl (hc g)⟩))))
  | setAcceptBelow b => cases h; exact .inr (.inr (.inr (.inr (.inr ⟨_, rfl, fun _ => rfl⟩))))
  | cpsid => cases h; exact .inr (.inr (.inr (.inr (.inr ⟨_, rfl, fun _ => rfl⟩))))
  | cpsie => cases h; exact .inr (.inr (.inr (.inr (.inr ⟨_, rfl, fun _ => rfl⟩))))
  | nmi l => cases h; exact .inr (.inr (.inr (.inr (.inr ⟨_, rfl, fun _ => rfl⟩))))

/-- A step that answers a next state delivers nothing, or the first input of the script. -/
theorem step_next {s s' : State} (h : step s = .next s') :
    (s.inputs = [] ∧ s' = s) ∨
    ∃ e rest, s.inputs = e :: rest ∧ deliver e { s with inputs := rest } = .next s' := by
  unfold step State.takeInput at h
  cases hi : s.inputs with
  | nil => rw [hi] at h; cases h; exact .inl ⟨rfl, rfl⟩
  | cons e rest => rw [hi] at h; exact .inr ⟨e, rest, rfl, h⟩

end Sys2Proof.Machine
end

