-- ==== Sys2Proof/Laws/PerInstr.lean ====
section
/-! SUPPORT. One lemma for each operation: the address it is encoded at lies in its own register's
four bytes and in no other register's (30_encoding.md rules R101, R104). -/

namespace Sys2Proof.Laws.EncodedAddress

/-- The encoded address decodes to the operation's register. -/
def Statement (i : Instr) : Prop := registerAt (encode i).addr = some i.register

theorem wrIser0 (a : Access) (d : Word) : Statement (.wrIser0 a d) :=
  registerAt_address .iser0 a.lane
theorem rdIser0 (a : Access) : Statement (.rdIser0 a) :=
  registerAt_address .iser0 a.lane

theorem wrIser1 (a : Access) (d : Word) : Statement (.wrIser1 a d) :=
  registerAt_address .iser1 a.lane
theorem rdIser1 (a : Access) : Statement (.rdIser1 a) :=
  registerAt_address .iser1 a.lane

theorem wrIser2 (a : Access) (d : Word) : Statement (.wrIser2 a d) :=
  registerAt_address .iser2 a.lane
theorem rdIser2 (a : Access) : Statement (.rdIser2 a) :=
  registerAt_address .iser2 a.lane

theorem wrIcer0 (a : Access) (d : Word) : Statement (.wrIcer0 a d) :=
  registerAt_address .icer0 a.lane
theorem rdIcer0 (a : Access) : Statement (.rdIcer0 a) :=
  registerAt_address .icer0 a.lane

theorem wrIcer1 (a : Access) (d : Word) : Statement (.wrIcer1 a d) :=
  registerAt_address .icer1 a.lane
theorem rdIcer1 (a : Access) : Statement (.rdIcer1 a) :=
  registerAt_address .icer1 a.lane

theorem wrIcer2 (a : Access) (d : Word) : Statement (.wrIcer2 a d) :=
  registerAt_address .icer2 a.lane
theorem rdIcer2 (a : Access) : Statement (.rdIcer2 a) :=
  registerAt_address .icer2 a.lane

theorem wrIspr0 (a : Access) (d : Word) : Statement (.wrIspr0 a d) :=
  registerAt_address .ispr0 a.lane
theorem rdIspr0 (a : Access) : Statement (.rdIspr0 a) :=
  registerAt_address .ispr0 a.lane

theorem wrIspr1 (a : Access) (d : Word) : Statement (.wrIspr1 a d) :=
  registerAt_address .ispr1 a.lane
theorem rdIspr1 (a : Access) : Statement (.rdIspr1 a) :=
  registerAt_address .ispr1 a.lane

theorem wrIspr2 (a : Access) (d : Word) : Statement (.wrIspr2 a d) :=
  registerAt_address .ispr2 a.lane
theorem rdIspr2 (a : Access) : Statement (.rdIspr2 a) :=
  registerAt_address .ispr2 a.lane

theorem wrIcpr0 (a : Access) (d : Word) : Statement (.wrIcpr0 a d) :=
  registerAt_address .icpr0 a.lane
theorem rdIcpr0 (a : Access) : Statement (.rdIcpr0 a) :=
  registerAt_address .icpr0 a.lane

theorem wrIcpr1 (a : Access) (d : Word) : Statement (.wrIcpr1 a d) :=
  registerAt_address .icpr1 a.lane
theorem rdIcpr1 (a : Access) : Statement (.rdIcpr1 a) :=
  registerAt_address .icpr1 a.lane

theorem wrIcpr2 (a : Access) (d : Word) : Statement (.wrIcpr2 a d) :=
  registerAt_address .icpr2 a.lane
theorem rdIcpr2 (a : Access) : Statement (.rdIcpr2 a) :=
  registerAt_address .icpr2 a.lane

theorem wrIabr0 (a : Access) (d : Word) : Statement (.wrIabr0 a d) :=
  registerAt_address .iabr0 a.lane
theorem rdIabr0 (a : Access) : Statement (.rdIabr0 a) :=
  registerAt_address .iabr0 a.lane

theorem wrIabr1 (a : Access) (d : Word) : Statement (.wrIabr1 a d) :=
  registerAt_address .iabr1 a.lane
theorem rdIabr1 (a : Access) : Statement (.rdIabr1 a) :=
  registerAt_address .iabr1 a.lane

theorem wrIabr2 (a : Access) (d : Word) : Statement (.wrIabr2 a d) :=
  registerAt_address .iabr2 a.lane
theorem rdIabr2 (a : Access) : Statement (.rdIabr2 a) :=
  registerAt_address .iabr2 a.lane

theorem wrIpr0 (a : Access) (d : Word) : Statement (.wrIpr0 a d) :=
  registerAt_address .ipr0 a.lane
theorem rdIpr0 (a : Access) : Statement (.rdIpr0 a) :=
  registerAt_address .ipr0 a.lane

theorem wrIpr1 (a : Access) (d : Word) : Statement (.wrIpr1 a d) :=
  registerAt_address .ipr1 a.lane
theorem rdIpr1 (a : Access) : Statement (.rdIpr1 a) :=
  registerAt_address .ipr1 a.lane

theorem wrIpr2 (a : Access) (d : Word) : Statement (.wrIpr2 a d) :=
  registerAt_address .ipr2 a.lane
theorem rdIpr2 (a : Access) : Statement (.rdIpr2 a) :=
  registerAt_address .ipr2 a.lane

theorem wrIpr3 (a : Access) (d : Word) : Statement (.wrIpr3 a d) :=
  registerAt_address .ipr3 a.lane
theorem rdIpr3 (a : Access) : Statement (.rdIpr3 a) :=
  registerAt_address .ipr3 a.lane

theorem wrIpr4 (a : Access) (d : Word) : Statement (.wrIpr4 a d) :=
  registerAt_address .ipr4 a.lane
theorem rdIpr4 (a : Access) : Statement (.rdIpr4 a) :=
  registerAt_address .ipr4 a.lane

theorem wrIpr5 (a : Access) (d : Word) : Statement (.wrIpr5 a d) :=
  registerAt_address .ipr5 a.lane
theorem rdIpr5 (a : Access) : Statement (.rdIpr5 a) :=
  registerAt_address .ipr5 a.lane

theorem wrIpr6 (a : Access) (d : Word) : Statement (.wrIpr6 a d) :=
  registerAt_address .ipr6 a.lane
theorem rdIpr6 (a : Access) : Statement (.rdIpr6 a) :=
  registerAt_address .ipr6 a.lane

theorem wrIpr7 (a : Access) (d : Word) : Statement (.wrIpr7 a d) :=
  registerAt_address .ipr7 a.lane
theorem rdIpr7 (a : Access) : Statement (.rdIpr7 a) :=
  registerAt_address .ipr7 a.lane

theorem wrIpr8 (a : Access) (d : Word) : Statement (.wrIpr8 a d) :=
  registerAt_address .ipr8 a.lane
theorem rdIpr8 (a : Access) : Statement (.rdIpr8 a) :=
  registerAt_address .ipr8 a.lane

theorem wrIpr9 (a : Access) (d : Word) : Statement (.wrIpr9 a d) :=
  registerAt_address .ipr9 a.lane
theorem rdIpr9 (a : Access) : Statement (.rdIpr9 a) :=
  registerAt_address .ipr9 a.lane

theorem wrIpr10 (a : Access) (d : Word) : Statement (.wrIpr10 a d) :=
  registerAt_address .ipr10 a.lane
theorem rdIpr10 (a : Access) : Statement (.rdIpr10 a) :=
  registerAt_address .ipr10 a.lane

theorem wrIpr11 (a : Access) (d : Word) : Statement (.wrIpr11 a d) :=
  registerAt_address .ipr11 a.lane
theorem rdIpr11 (a : Access) : Statement (.rdIpr11 a) :=
  registerAt_address .ipr11 a.lane

theorem wrIpr12 (a : Access) (d : Word) : Statement (.wrIpr12 a d) :=
  registerAt_address .ipr12 a.lane
theorem rdIpr12 (a : Access) : Statement (.rdIpr12 a) :=
  registerAt_address .ipr12 a.lane

theorem wrIpr13 (a : Access) (d : Word) : Statement (.wrIpr13 a d) :=
  registerAt_address .ipr13 a.lane
theorem rdIpr13 (a : Access) : Statement (.rdIpr13 a) :=
  registerAt_address .ipr13 a.lane

theorem wrIpr14 (a : Access) (d : Word) : Statement (.wrIpr14 a d) :=
  registerAt_address .ipr14 a.lane
theorem rdIpr14 (a : Access) : Statement (.rdIpr14 a) :=
  registerAt_address .ipr14 a.lane

theorem wrIpr15 (a : Access) (d : Word) : Statement (.wrIpr15 a d) :=
  registerAt_address .ipr15 a.lane
theorem rdIpr15 (a : Access) : Statement (.rdIpr15 a) :=
  registerAt_address .ipr15 a.lane

theorem wrIpr16 (a : Access) (d : Word) : Statement (.wrIpr16 a d) :=
  registerAt_address .ipr16 a.lane
theorem rdIpr16 (a : Access) : Statement (.rdIpr16 a) :=
  registerAt_address .ipr16 a.lane

theorem wrIpr17 (a : Access) (d : Word) : Statement (.wrIpr17 a d) :=
  registerAt_address .ipr17 a.lane
theorem rdIpr17 (a : Access) : Statement (.rdIpr17 a) :=
  registerAt_address .ipr17 a.lane

theorem wrIpr18 (a : Access) (d : Word) : Statement (.wrIpr18 a d) :=
  registerAt_address .ipr18 a.lane
theorem rdIpr18 (a : Access) : Statement (.rdIpr18 a) :=
  registerAt_address .ipr18 a.lane

theorem wrIpr19 (a : Access) (d : Word) : Statement (.wrIpr19 a d) :=
  registerAt_address .ipr19 a.lane
theorem rdIpr19 (a : Access) : Statement (.rdIpr19 a) :=
  registerAt_address .ipr19 a.lane

theorem wrIpr20 (a : Access) (d : Word) : Statement (.wrIpr20 a d) :=
  registerAt_address .ipr20 a.lane
theorem rdIpr20 (a : Access) : Statement (.rdIpr20 a) :=
  registerAt_address .ipr20 a.lane

theorem wrStir (a : Access) (d : Word) : Statement (.wrStir a d) :=
  registerAt_address .stir a.lane
theorem rdStir (a : Access) : Statement (.rdStir a) :=
  registerAt_address .stir a.lane

end Sys2Proof.Laws.EncodedAddress
end

