-- ==== Sys2Proof/Tests/Slice0.lean ====
section
/-! SUPPORT. The model's own tests.  Expected results are the spec's: the words from
30_encoding.md rules R101 and R104, the vectors V<n> of 95_test_vectors.md. -/

set_option maxRecDepth 16384

namespace Sys2Proof.Machine.Tests

/-! ## Helpers -/

/-- The reset state with some interrupts' components replaced. -/
def mk (l : List (Nat × Irq)) : State :=
  l.foldl (fun s p => s.updateIrq p.1 fun _ => p.2) State.reset

/-- The reset state of a device with 40 interrupts. -/
def small : State := { State.reset with cfg := ⟨39⟩ }

/-- A privileged word access, and an unprivileged one. -/
def w : Access := ⟨true, 4, 0⟩
def u : Access := ⟨false, 4, 0⟩

/-- The answer of an outcome, and interrupt `n` after it. -/
def ans : Host.Outcome State Fault Refusal → Option Answer
  | .next t => t.answer
  | _ => none
def after (n : Nat) : Host.Outcome State Fault Refusal → Option Irq
  | .next t => some (t.irq n)
  | _ => none
def refusal : Host.Outcome State Fault Refusal → Option Refusal
  | .refused r => some r
  | _ => none
def fault : Host.Outcome State Fault Refusal → Option Fault
  | .fault x => some x
  | _ => none

/-- An interrupt from its five bits and level. -/
def q (en pend act : Bool) (pri : Level) (line : Bool) : Irq := ⟨en, pend, act, pri, line⟩

/-! ## WellFormed refuses -/

theorem test_wf_size : (Instr.wrIser0 ⟨true, 1, 0⟩ 1).wellFormed = false := by decide
theorem test_wf_word_lane : (Instr.rdIabr2 ⟨true, 4, 2⟩).wellFormed = false := by decide
theorem test_wf_lanes_size : (Instr.rdIpr3 ⟨true, 3, 0⟩).wellFormed = false := by decide
theorem test_wf_lanes_align : (Instr.wrIpr0 ⟨true, 2, 1⟩ 0x1010).wellFormed = false := by decide
theorem test_wf_data : (Instr.wrIpr9 ⟨true, 1, 1⟩ 0x15A).wellFormed = false := by decide
theorem test_wf_reserved : (Instr.wrStir w 0x203).wellFormed = false := by decide
theorem test_wf_accepts : (Instr.wrIpr9 ⟨true, 1, 1⟩ 0x5A).wellFormed = true := by decide

/-! ## Decoding: for each register the word of its read and of its write

A word is the address of rule R101's table in bits 31:0, the data in bits 63:32, bit 64 for a read. -/

theorem test_decode_iser :
    [0x1_00000000_E000E100, 0x000000A5_E000E100,
     0x1_00000000_E000E104, 0x000000A5_E000E104,
     0x1_00000000_E000E108, 0x000000A5_E000E108].map (decodeTableWord 68) =
    [some (.rdIser0 w), some (.wrIser0 w 0xA5),
     some (.rdIser1 w), some (.wrIser1 w 0xA5),
     some (.rdIser2 w), some (.wrIser2 w 0xA5)] := by decide

theorem test_decode_icer :
    [0x1_00000000_E000E180, 0x000000A5_E000E180,
     0x1_00000000_E000E184, 0x000000A5_E000E184,
     0x1_00000000_E000E188, 0x000000A5_E000E188].map (decodeTableWord 68) =
    [some (.rdIcer0 w), some (.wrIcer0 w 0xA5),
     some (.rdIcer1 w), some (.wrIcer1 w 0xA5),
     some (.rdIcer2 w), some (.wrIcer2 w 0xA5)] := by decide

theorem test_decode_ispr :
    [0x1_00000000_E000E200, 0x000000A5_E000E200,
     0x1_00000000_E000E204, 0x000000A5_E000E204,
     0x1_00000000_E000E208, 0x000000A5_E000E208].map (decodeTableWord 68) =
    [some (.rdIspr0 w), some (.wrIspr0 w 0xA5),
     some (.rdIspr1 w), some (.wrIspr1 w 0xA5),
     some (.rdIspr2 w), some (.wrIspr2 w 0xA5)] := by decide

theorem test_decode_icpr :
    [0x1_00000000_E000E280, 0x000000A5_E000E280,
     0x1_00000000_E000E284, 0x000000A5_E000E284,
     0x1_00000000_E000E288, 0x000000A5_E000E288].map (decodeTableWord 68) =
    [some (.rdIcpr0 w), some (.wrIcpr0 w 0xA5),
     some (.rdIcpr1 w), some (.wrIcpr1 w 0xA5),
     some (.rdIcpr2 w), some (.wrIcpr2 w 0xA5)] := by decide

theorem test_decode_iabr :
    [0x1_00000000_E000E300, 0x000000A5_E000E300,
     0x1_00000000_E000E304, 0x000000A5_E000E304,
     0x1_00000000_E000E308, 0x000000A5_E000E308].map (decodeTableWord 68) =
    [some (.rdIabr0 w), some (.wrIabr0 w 0xA5),
     some (.rdIabr1 w), some (.wrIabr1 w 0xA5),
     some (.rdIabr2 w), some (.wrIabr2 w 0xA5)] := by decide

theorem test_decode_stir :
    [0x1_00000000_E000EF00, 0x000000A5_E000EF00].map (decodeTableWord 68) =
    [some (.rdStir w), some (.wrStir w 0xA5)] := by decide

theorem test_decode_ipr0 :
    [0x1_00000000_E000E400, 0x40302010_E000E400,
     0x1_00000000_E000E404, 0x40302010_E000E404,
     0x1_00000000_E000E408, 0x40302010_E000E408,
     0x1_00000000_E000E40C, 0x40302010_E000E40C].map (decodeTableWord 68) =
    [some (.rdIpr0 w), some (.wrIpr0 w 0x40302010),
     some (.rdIpr1 w), some (.wrIpr1 w 0x40302010),
     some (.rdIpr2 w), some (.wrIpr2 w 0x40302010),
     some (.rdIpr3 w), some (.wrIpr3 w 0x40302010)] := by decide

theorem test_decode_ipr4 :
    [0x1_00000000_E000E410, 0x40302010_E000E410,
     0x1_00000000_E000E414, 0x40302010_E000E414,
     0x1_00000000_E000E418, 0x40302010_E000E418,
     0x1_00000000_E000E41C, 0x40302010_E000E41C].map (decodeTableWord 68) =
    [some (.rdIpr4 w), some (.wrIpr4 w 0x40302010),
     some (.rdIpr5 w), some (.wrIpr5 w 0x40302010),
     some (.rdIpr6 w), some (.wrIpr6 w 0x40302010),
     some (.rdIpr7 w), some (.wrIpr7 w 0x40302010)] := by decide

theorem test_decode_ipr8 :
    [0x1_00000000_E000E420, 0x40302010_E000E420,
     0x1_00000000_E000E424, 0x40302010_E000E424,
     0x1_00000000_E000E428, 0x40302010_E000E428,
     0x1_00000000_E000E42C, 0x40302010_E000E42C].map (decodeTableWord 68) =
    [some (.rdIpr8 w), some (.wrIpr8 w 0x40302010),
     some (.rdIpr9 w), some (.wrIpr9 w 0x40302010),
     some (.rdIpr10 w), some (.wrIpr10 w 0x40302010),
     some (.rdIpr11 w), some (.wrIpr11 w 0x40302010)] := by decide

theorem test_decode_ipr12 :
    [0x1_00000000_E000E430, 0x40302010_E000E430,
     0x1_00000000_E000E434, 0x40302010_E000E434,
     0x1_00000000_E000E438, 0x40302010_E000E438,
     0x1_00000000_E000E43C, 0x40302010_E000E43C].map (decodeTableWord 68) =
    [some (.rdIpr12 w), some (.wrIpr12 w 0x40302010),
     some (.rdIpr13 w), some (.wrIpr13 w 0x40302010),
     some (.rdIpr14 w), some (.wrIpr14 w 0x40302010),
     some (.rdIpr15 w), some (.wrIpr15 w 0x40302010)] := by decide

theorem test_decode_ipr16 :
    [0x1_00000000_E000E440, 0x40302010_E000E440,
     0x1_00000000_E000E444, 0x40302010_E000E444,
     0x1_00000000_E000E448, 0x40302010_E000E448,
     0x1_00000000_E000E44C, 0x40302010_E000E44C].map (decodeTableWord 68) =
    [some (.rdIpr16 w), some (.wrIpr16 w 0x40302010),
     some (.rdIpr17 w), some (.wrIpr17 w 0x40302010),
     some (.rdIpr18 w), some (.wrIpr18 w 0x40302010),
     some (.rdIpr19 w), some (.wrIpr19 w 0x40302010)] := by decide

theorem test_decode_ipr20 :
    [0x1_00000000_E000E450, 0x40302010_E000E450].map (decodeTableWord 68) =
    [some (.rdIpr20 w), some (.wrIpr20 w 0x40302010)] := by decide

/-- Byte and halfword lanes of an IPR: size code in bits 67:66, lane in the address (V82, V84). -/
theorem test_decode_lanes :
    decodeTableWord 68 0x4_0000005A_E000E425 = some (.wrIpr9 ⟨true, 1, 1⟩ 0x5A) ∧
    decodeTableWord 68 0x9_00000000_E000E402 = some (.rdIpr0 ⟨true, 2, 2⟩) := by decide

/-- An unprivileged access: bit 65 (V37). -/
theorem test_decode_unprivileged :
    decodeTableWord 68 0x2_00000003_E000EF00 = some (.wrStir u 3) := by decide

/-- Holes and addresses that are not the NVIC's (V15, V92, conflicts C1 to C4). -/
theorem test_decode_holes :
    [0xE000E10C, 0xE000E17C, 0xE000E28C, 0xE000E30C, 0xE000E454, 0xE000E500, 0xE000EF04,
      0xE000E0FC].map (decodeTableWord 32) = List.replicate 8 none := by decide

/-- A table word alone, operands zero, as the first step after reset. -/
theorem test_first_step :
    ans (step (State.reset.withFetchWord 32 0xE000E104)) = some .done := by decide

/-! ## Enable registers (V1 to V17) -/

theorem test_V1 : after 37 (exec (.wrIser1 w 0x20) State.reset) = some (q true false false 0 false) := by decide
theorem test_V2 : ans (exec (.rdIser1 w) (mk [(37, q true false false 0 false)])) = some (.data 4 0x20) := by decide
theorem test_V3 : after 37 (exec (.wrIser1 w 0) (mk [(37, q true false false 0 false)])) =
    some (q true false false 0 false) := by decide
theorem test_V4 : after 37 (exec (.wrIcer1 w 0x20) (mk [(37, q true false false 0 false)])) =
    some (q false false false 0 false) := by decide
theorem test_V5 : ans (exec (.rdIser0 w) (mk [(0, q true false false 0 false), (31, q true false false 0 false)])) =
    some (.data 4 0x80000001) := by decide
theorem test_R133 : ans (exec (.rdIcer0 w) (mk [(0, q true false false 0 false), (31, q true false false 0 false)])) =
    some (.data 4 0x80000001) := by decide
theorem test_V6 : ans (match exec (.wrIser2 w 0xFFFFFFFF) State.reset with
    | .next t => exec (.rdIser2 w) t
    | o => o) = some (.data 4 0x0001FFFF) := by decide
theorem test_V7 : after 80 (exec (.wrIcer2 w 0xFFFFFFFF) (mk [(80, q true false false 0 false)])) =
    some (q false false false 0 false) := by decide
theorem test_V8 : after 3 (exec (.wrIcer0 w 8) (mk [(3, q true true true 0 false)])) = some (q false true true 0 false) := by decide
theorem test_V9 : ans (match exec (.wrIser1 w 0xFFFFFFFF) small with
    | .next t => exec (.rdIser1 w) t
    | o => o) = some (.data 4 0xFF) := by decide
theorem test_V10 : exec (.wrIser0 u 1) State.reset =
    .next { State.reset with answer := some .accessFault } := rfl
theorem test_V11 : ans (exec (.rdIser0 u) State.reset) = some .accessFault := by decide
theorem test_V12 : refusal (exec (.wrIser0 ⟨true, 1, 0⟩ 1) State.reset) = some (.unsupportedSize 1) := by decide
theorem test_V13 : refusal (exec (.wrIser0 ⟨true, 4, 2⟩ 1) State.reset) = some (.unaligned 4 2) := by decide
theorem test_V14 : refusal (exec (.wrIser0 ⟨true, 2, 2⟩ 1) State.reset) = some (.unsupportedSize 2) := by decide
theorem test_V16 : refusal (transact ⟨.read, 0xE000E10C, 4, false⟩ State.reset) = some (.hole 0xE000E10C) := by decide
theorem test_V17 : ans (transact ⟨.read, 0xE000E101, 1, false⟩ State.reset) = some .accessFault ∧
    refusal (transact ⟨.read, 0xE000E101, 1, true⟩ State.reset) = some (.unsupportedSize 1) := by decide

/-! ## Pending registers (V20 to V31) -/

theorem test_V20 : ans (match exec (.wrIspr0 w 8) State.reset with
    | .next t => exec (.rdIcpr0 w) t
    | o => o) = some (.data 4 8) := by decide
theorem test_V22 : after 3 (exec (.wrIspr0 w 8) (mk [(3, q false false true 0 false)])) = some (q false true true 0 false) := by decide
theorem test_V23 : after 3 (exec (.wrIcpr0 w 8) (mk [(3, q false true false 0 false)])) = some (q false false false 0 false) := by decide
theorem test_V24 : after 3 (exec (.wrIcpr0 w 8) (mk [(3, q false true false 0 true)])) = some (q false true false 0 true) := by decide
theorem test_V25 : after 35 (exec (.wrIcpr1 w 8) (mk [(35, q false true true 0 false)])) = some (q false false true 0 false) := by decide
theorem test_V26 : after 67 (exec (.wrIcpr2 w 8) (mk [(67, q false true true 0 true)])) = some (q false true true 0 true) := by decide
theorem test_V27 : ans (exec (.rdIspr2 w) (mk [(64, q false true false 0 false), (80, q false true false 0 false)])) =
    some (.data 4 0x00010001) := by decide
theorem test_V27_icpr : ans (exec (.rdIcpr2 w) (mk [(64, q false true false 0 false), (80, q false true false 0 false)])) =
    some (.data 4 0x00010001) := by decide
theorem test_V28 : ans (exec (.rdIspr0 w) (mk [(5, q false true false 0 false), (6, q false false true 0 false), (7, q false true true 0 false)])) =
    some (.data 4 0xA0) := by decide
theorem test_V30 : after 80 (exec (.wrIspr2 w 0xFFFE0000) State.reset) = some Irq.reset := by decide
theorem test_ispr1_bit : after 63 (exec (.wrIspr1 w 0x80000000) State.reset) = some (q false true false 0 false) := by decide
theorem test_rdIspr1_rdIcpr1 : ans (exec (.rdIspr1 w) (mk [(32, q false true false 0 false)])) = some (.data 4 1) ∧
    ans (exec (.rdIcpr1 w) (mk [(63, q false true false 0 false)])) = some (.data 4 0x80000000) := by decide
theorem test_V31 : ans (exec (.wrIspr0 u 8) { State.reset with env := ⟨true, 0, false, 16, false⟩ }) = some .accessFault := by decide

/-! ## Software trigger (V32 to V39) -/

theorem test_V33 : after 80 (exec (.wrStir w 0x50) State.reset) = some (q false true false 0 false) := by decide
theorem test_V34_V35 : (match exec (.wrStir w 0x51) State.reset, exec (.wrStir w 0x1FF) State.reset with
    | .next s, .next t => decide (s.irqs = State.reset.irqs) && decide (t.irqs = State.reset.irqs)
    | _, _ => false) = true := by decide
theorem test_V36 : refusal (exec (.wrStir w 0x203) State.reset) = some (.reservedStirBits 0x203) := by decide
theorem test_V37 : ans (exec (.wrStir u 3) State.reset) = some .accessFault := by decide
theorem test_V38 : after 3 (exec (.wrStir u 3) { State.reset with env := ⟨true, 0, false, 16, false⟩ }) =
    some (q false true false 0 false) := by decide
theorem test_V39 : exec (.rdStir w) State.reset =
    .next { State.reset with answer := some (.data 4 (Config.freeValue 0)), freeCtr := 1 } := rfl

/-! ## Samples, entries, returns (V40 to V56) -/

theorem test_V40 : (q false false false 0 false).sampled true = q false true false 0 true := by decide
theorem test_V42 : (q false true false 0 true).sampled false = q false true false 0 false := by decide
theorem test_V43 : (q false false true 0 false).sampled true = q false true true 0 true := by decide
theorem test_V44 : (q false false true 0 true).sampled true = q false false true 0 true := by decide
theorem test_V48 : ans (match deliver (.sample (BitVec.ofNat 81 (2 ^ 80 + 1))) State.reset with
    | .next t => exec (.rdIspr2 w) t
    | o => o) = some (.data 4 0x00010000) := by decide
theorem test_V50 : after 5 (deliver (.entry 5) (mk [(5, q true true false 0 false)])) = some (q true false true 0 false) := by decide
theorem test_V51 : fault (deliver (.entry 5) (mk [(5, q false true false 0 false)])) = some (.entryNotEnabled 5) := by decide
theorem test_V52_V53_V54 : (q true false true 0 true).returned false = q true false false 0 false ∧
    (q true false true 0 false).returned true = q true true false 0 true ∧
    (q true true true 0 false).returned false = q true true false 0 false := by decide
theorem test_V55 : fault (deliver (.ret 5 false) State.reset) = some (.returnNotEnabled 5) := by decide
theorem test_V56 : (deliverAll [.cpsid, .entry 5] (mk [(5, q true true false 0 false)]) matches .fault _) = true := by decide

/-! ## Selection (V60 to V70) -/

theorem test_V60 : (mk [(7, q true true false 3 false), (9, q false true false 0 false)]).request = some 7 := by decide
theorem test_V62 : (mk [(7, q true true false 3 false), (9, q true true false 3 false)]).request = some 7 := by decide
theorem test_V63 : (mk [(7, q true true false 3 false), (9, q true true false 2 false)]).request = some 9 := by decide
theorem test_V64 : (mk [(7, q false false true 3 false), (9, q true true false 2 false)]).mayEnter 9 = true := by decide
theorem test_V65 : (mk [(7, q false false true 3 false), (9, q true true false 3 false)]).mayEnter 9 = false := by decide
theorem test_V66_V67 :
    let grouped (p : Level) : State :=
      { mk [(7, q false false true 3 false), (9, q true true false p false)] with
        env := ⟨false, 4, false, 16, false⟩ }
    (grouped 2).mayEnter 9 = false ∧ (grouped 1).mayEnter 9 = true := by decide
theorem test_V70 : (mk [(7, q true true true 0 false)]).request = some 7 ∧
    (mk [(7, q true true true 0 false)]).mayEnter 7 = false := by decide

/-! ## Active registers (V75 to V78) -/

theorem test_V75 : ans (exec (.rdIabr0 w) (mk [(2, q false false true 0 false)])) = some (.data 4 4) ∧
    ans (exec (.rdIabr1 w) (mk [(40, q false false true 0 false)])) = some (.data 4 0x100) := by decide
theorem test_V76_iabr0 (d : Word) (s : State) : exec (.wrIabr0 w d) s = .next { s with answer := some .done } :=
  rfl
theorem test_V76_iabr1 (d : Word) (s : State) : exec (.wrIabr1 w d) s = .next { s with answer := some .done } :=
  rfl
theorem test_V76_iabr2 (d : Word) (s : State) : exec (.wrIabr2 w d) s = .next { s with answer := some .done } :=
  rfl
theorem test_V77 : ans (exec (.rdIabr2 w) (mk [(80, q false false true 0 false)])) = some (.data 4 0x00010000) := by decide

/-! ## Priority registers (V80 to V94) -/

theorem test_V80 : after 2 (exec (.wrIpr0 w 0x40302010) State.reset) = some (q false false false 3 false) := by decide

/-- After V80. -/
def v80 : State := mk [(0, q false false false 1 false), (1, q false false false 2 false),
  (2, q false false false 3 false), (3, q false false false 4 false)]

theorem test_V81 : ans (exec (.rdIpr0 w) v80) = some (.data 4 0x40302010) := by decide
theorem test_V82_V83 : ans (exec (.rdIpr0 ⟨true, 1, 2⟩) v80) = some (.data 1 0x30) ∧
    ans (exec (.rdIpr0 ⟨true, 2, 2⟩) v80) = some (.data 2 0x4030) := by decide
theorem test_V84 : after 37 (exec (.wrIpr9 ⟨true, 1, 1⟩ 0x5A) State.reset) = some (q false false false 5 false) ∧
    ans (exec (.rdIpr9 w) (mk [(37, q false false false 5 false)])) = some (.data 4 0x5000) := by decide
theorem test_V87 : after 3 (exec (.wrIpr0 ⟨true, 2, 2⟩ 0xFFEE) v80) = some (q false false false 15 false) := by decide
theorem test_V88 : after 80 (exec (.wrIpr20 w 0xFFFFFFFF) State.reset) = some (q false false false 15 false) ∧
    ans (exec (.rdIpr20 w) (mk [(80, q false false false 15 false)])) = some (.data 4 0xF0) := by decide
theorem test_V89 : ans (exec (.rdIpr20 ⟨true, 1, 1⟩) (mk [(80, q false false false 15 false)])) = some (.data 1 0) := by decide
theorem test_V90 : refusal (exec (.wrIpr0 ⟨true, 2, 1⟩ 0x1010) State.reset) = some (.unaligned 2 1) := by decide
theorem test_V94 : after 40 (exec (.wrIpr10 ⟨true, 1, 0⟩ 0xF0) small) = some Irq.reset := by decide
theorem test_ipr1 : after 5 (exec (.wrIpr1 ⟨true, 1, 1⟩ 0x20) State.reset) =
      some (q false false false 2 false) ∧
    ans (exec (.rdIpr1 w) (mk [(5, q false false false 2 false)])) = some (.data 4 0x00002000) := by decide
theorem test_ipr2 : after 10 (exec (.wrIpr2 ⟨true, 1, 2⟩ 0x30) State.reset) =
      some (q false false false 3 false) ∧
    ans (exec (.rdIpr2 w) (mk [(10, q false false false 3 false)])) = some (.data 4 0x00300000) := by decide
theorem test_ipr3 : after 15 (exec (.wrIpr3 ⟨true, 1, 3⟩ 0x40) State.reset) =
      some (q false false false 4 false) ∧
    ans (exec (.rdIpr3 w) (mk [(15, q false false false 4 false)])) = some (.data 4 0x40000000) := by decide
theorem test_ipr4 : after 16 (exec (.wrIpr4 ⟨true, 1, 0⟩ 0x50) State.reset) =
      some (q false false false 5 false) ∧
    ans (exec (.rdIpr4 w) (mk [(16, q false false false 5 false)])) = some (.data 4 0x00000050) := by decide
theorem test_ipr5 : after 21 (exec (.wrIpr5 ⟨true, 1, 1⟩ 0x60) State.reset) =
      some (q false false false 6 false) ∧
    ans (exec (.rdIpr5 w) (mk [(21, q false false false 6 false)])) = some (.data 4 0x00006000) := by decide
theorem test_ipr6 : after 26 (exec (.wrIpr6 ⟨true, 1, 2⟩ 0x70) State.reset) =
      some (q false false false 7 false) ∧
    ans (exec (.rdIpr6 w) (mk [(26, q false false false 7 false)])) = some (.data 4 0x00700000) := by decide
theorem test_ipr7 : after 31 (exec (.wrIpr7 ⟨true, 1, 3⟩ 0x80) State.reset) =
      some (q false false false 8 false) ∧
    ans (exec (.rdIpr7 w) (mk [(31, q false false false 8 false)])) = some (.data 4 0x80000000) := by decide
theorem test_ipr8 : after 32 (exec (.wrIpr8 ⟨true, 1, 0⟩ 0x90) State.reset) =
      some (q false false false 9 false) ∧
    ans (exec (.rdIpr8 w) (mk [(32, q false false false 9 false)])) = some (.data 4 0x00000090) := by decide
theorem test_ipr10 : after 42 (exec (.wrIpr10 ⟨true, 1, 2⟩ 0xB0) State.reset) =
      some (q false false false 11 false) ∧
    ans (exec (.rdIpr10 w) (mk [(42, q false false false 11 false)])) = some (.data 4 0x00B00000) := by decide
theorem test_ipr11 : after 47 (exec (.wrIpr11 ⟨true, 1, 3⟩ 0xC0) State.reset) =
      some (q false false false 12 false) ∧
    ans (exec (.rdIpr11 w) (mk [(47, q false false false 12 false)])) = some (.data 4 0xC0000000) := by decide
theorem test_ipr12 : after 48 (exec (.wrIpr12 ⟨true, 1, 0⟩ 0xD0) State.reset) =
      some (q false false false 13 false) ∧
    ans (exec (.rdIpr12 w) (mk [(48, q false false false 13 false)])) = some (.data 4 0x000000D0) := by decide
theorem test_ipr13 : after 53 (exec (.wrIpr13 ⟨true, 1, 1⟩ 0xE0) State.reset) =
      some (q false false false 14 false) ∧
    ans (exec (.rdIpr13 w) (mk [(53, q false false false 14 false)])) = some (.data 4 0x0000E000) := by decide
theorem test_ipr14 : after 58 (exec (.wrIpr14 ⟨true, 1, 2⟩ 0xF0) State.reset) =
      some (q false false false 15 false) ∧
    ans (exec (.rdIpr14 w) (mk [(58, q false false false 15 false)])) = some (.data 4 0x00F00000) := by decide
theorem test_ipr15 : after 63 (exec (.wrIpr15 ⟨true, 1, 3⟩ 0x10) State.reset) =
      some (q false false false 1 false) ∧
    ans (exec (.rdIpr15 w) (mk [(63, q false false false 1 false)])) = some (.data 4 0x10000000) := by decide
theorem test_ipr16 : after 64 (exec (.wrIpr16 ⟨true, 1, 0⟩ 0x20) State.reset) =
      some (q false false false 2 false) ∧
    ans (exec (.rdIpr16 w) (mk [(64, q false false false 2 false)])) = some (.data 4 0x00000020) := by decide
theorem test_ipr17 : after 69 (exec (.wrIpr17 ⟨true, 1, 1⟩ 0x30) State.reset) =
      some (q false false false 3 false) ∧
    ans (exec (.rdIpr17 w) (mk [(69, q false false false 3 false)])) = some (.data 4 0x00003000) := by decide
theorem test_ipr18 : after 74 (exec (.wrIpr18 ⟨true, 1, 2⟩ 0x40) State.reset) =
      some (q false false false 4 false) ∧
    ans (exec (.rdIpr18 w) (mk [(74, q false false false 4 false)])) = some (.data 4 0x00400000) := by decide
theorem test_ipr19 : after 79 (exec (.wrIpr19 ⟨true, 1, 3⟩ 0x50) State.reset) =
      some (q false false false 5 false) ∧
    ans (exec (.rdIpr19 w) (mk [(79, q false false false 5 false)])) = some (.data 4 0x50000000) := by decide

/-! ## Reset and CMSIS (V95 to V101) -/

theorem test_V95 : after 3 (deliver .reset (mk [(3, q true true true 9 true), (40, q false false true 0 false)])) = some Irq.reset := by decide
theorem test_V96_V97 : nvicEnableIRQ 37 = .bus ⟨.write 0x20, 0xE000E104, 4, true⟩ ∧
    nvicDisableIRQ 80 = .bus ⟨.write 0x10000, 0xE000E188, 4, true⟩ := by decide
theorem test_V98_V99 : nvicSetPendingIRQ 3 = .bus ⟨.write 8, 0xE000E200, 4, true⟩ ∧
    nvicClearPendingIRQ 3 = .bus ⟨.write 8, 0xE000E280, 4, true⟩ := by decide
theorem test_V100 : nvicSetPriority 37 5 = .bus ⟨.write 0x50, 0xE000E425, 1, true⟩ ∧
    nvicGetPriority 37 = .bus ⟨.read, 0xE000E425, 1, true⟩ ∧
    priorityResult (some (.data 1 0x50)) = 5 := by decide
theorem test_V101 : nonZeroResult 2 (some (.data 4 4)) = true := by decide

/-! ## Witnesses: for each statement with hypotheses, an input that meets them all -/

open Sys2Proof.Claims

/-- The reset state with a script. -/
def sc (es : List Input) (s : State := State.reset) : State := { s with inputs := es }

/-- Interrupt 7 active at level 3, interrupt 9 enabled and pending at level 2. -/
def nested : State := mk [(7, q true false true 3 false), (9, q true true false 2 false)]

/-- A word access of a privileged load to ISER1, in the reset state. -/
def readIser1 : Input := .bus ⟨.read, 0xE000E104, 4, true⟩

theorem privWord_w : PrivWord w := by simp [PrivWord, w]

theorem witness_DecodeOfEncode :
    (Instr.wrIpr20 ⟨false, 1, 3⟩ 0xFF).dataFits = true ∧
    (Instr.wrIser0 ⟨true, 2, 3⟩ 0xFFFF).dataFits = true := by decide
theorem witness_DecodeTableWordOfBits :
    (Instr.wrIpr20 w 0xFFFFFFFF).wellFormed = true ∧ (Instr.wrIpr0 ⟨false, 2, 2⟩ 0xFFFF).wellFormed = true ∧
    (Instr.wrStir w 0x1FF).wellFormed = true ∧ (Instr.rdStir u).wellFormed = true := by decide
theorem witness_AddressMap :
    [0xE000E100, 0xE000E10B, 0xE000E180, 0xE000E18B, 0xE000E200, 0xE000E20B, 0xE000E280, 0xE000E28B,
     0xE000E300, 0xE000E30B, 0xE000E400, 0xE000E453, 0xE000EF00, 0xE000EF03].all
      (fun a => (registerAt a).isSome) = true ∧
    [0xE000E0FF, 0xE000E10C, 0xE000E17F, 0xE000E18C, 0xE000E1FF, 0xE000E20C, 0xE000E27F, 0xE000E28C,
     0xE000E2FF, 0xE000E30C, 0xE000E3FF, 0xE000E454, 0xE000EEFF, 0xE000EF04].any
      (fun a => (registerAt a).isSome) = false := by decide
theorem witness_SetEnableWrite : (Instr.wrIser2, 2) ∈ iserWrites ∧ PrivWord w :=
  ⟨by simp [iserWrites], privWord_w⟩
theorem witness_ClearEnableWrite : (Instr.wrIcer2, 2) ∈ icerWrites ∧ PrivWord w :=
  ⟨by simp [icerWrites], privWord_w⟩
theorem witness_EnableReads : (Instr.rdIcer2, 2) ∈ enableReads ∧ PrivWord w :=
  ⟨by simp [enableReads], privWord_w⟩
theorem witness_SetPendingWrite : (Instr.wrIspr2, 2) ∈ isprWrites ∧ PrivWord w :=
  ⟨by simp [isprWrites], privWord_w⟩
theorem witness_ClearPendingWrite : (Instr.wrIcpr2, 2) ∈ icprWrites ∧ PrivWord w :=
  ⟨by simp [icprWrites], privWord_w⟩
theorem witness_PendingReads : (Instr.rdIcpr2, 2) ∈ pendingReads ∧ PrivWord w :=
  ⟨by simp [pendingReads], privWord_w⟩
theorem witness_ActiveReads : (Instr.rdIabr2, 2) ∈ activeReads ∧ PrivWord w :=
  ⟨by simp [activeReads], privWord_w⟩
theorem witness_ActiveWriteIgnored : Instr.wrIabr2 ∈ iabrWrites ∧ PrivWord w :=
  ⟨by simp [iabrWrites], privWord_w⟩
theorem witness_PriorityWrite_PriorityRead : (Instr.wrIpr20, Instr.rdIpr20, 20) ∈ iprOps ∧
    PrivLanes w ∧ PrivLanes ⟨true, 1, 3⟩ ∧ PrivLanes ⟨true, 2, 2⟩ := by
  refine ⟨by simp [iprOps], ?_, ?_, ?_⟩ <;> simp [PrivLanes, w]
theorem witness_PriorityReadsBack : (Instr.wrIpr20, Instr.rdIpr20, 20) ∈ iprOps ∧
    PrivLanes ⟨true, 1, 0⟩ ∧ 4 * 20 + 0 + 1 ≤ State.reset.cfg.numIrq :=
  ⟨by simp [iprOps], by simp [PrivLanes], by decide⟩
theorem witness_SoftwareTrigger_SoftwareTriggerRead :
    StirWord w State.reset ∧ StirWord u { State.reset with env := ⟨true, 0, false, 16, false⟩ } ∧
    (0x1FF : Word).toNat < 512 := by
  refine ⟨?_, ?_, by decide⟩ <;> simp [StirWord, w, u]
theorem witness_SoftwareTriggerReservedRefused :
    StirWord w State.reset ∧ 512 ≤ (0x200 : Word).toNat := ⟨by simp [StirWord, w], by decide⟩
theorem witness_SoftwareTriggerDenied :
    u.priv = false ∧ State.reset.env.userSetMPend = false := by decide
theorem witness_SoftwareTriggerIsSetPending : (Instr.wrIspr2, 2) ∈ isprWrites ∧ PrivWord w ∧
    80 < State.reset.cfg.numIrq ∧ 80 / 32 = 2 := ⟨by simp [isprWrites], privWord_w, by decide⟩
theorem witness_UnprivilegedIsAccessFault :
    (Instr.wrIpr0 ⟨false, 3, 1⟩ 0).register ≠ .stir ∧
    (Instr.wrIpr0 ⟨false, 3, 1⟩ 0).access.priv = false := by decide
theorem witness_WrongFormatRefused :
    (Instr.rdIser0 ⟨true, 1, 0⟩).formatOk = false ∧ (Instr.rdIpr0 ⟨true, 4, 2⟩).formatOk = false ∧
    (Instr.rdIser0 ⟨true, 1, 0⟩).access.priv = true ∧
    (Instr.wrStir ⟨false, 4, 2⟩ 3).formatOk = false ∧ (Instr.rdStir ⟨false, 1, 0⟩).formatOk = false ∧
    (Instr.rdStir ⟨false, 1, 0⟩).register = .stir := by decide
theorem witness_PrivilegedCompletesIffFormat :
    (Instr.wrStir w 0x1FF).access.priv = true ∧ (Instr.wrStir w 0x1FF).formatOk = true ∧
    (Instr.wrStir w 0x1FF).reservedClear = true ∧ (Instr.wrStir w 0x200).reservedClear = false := by decide
theorem witness_ReadsChangeNothing : (Instr.rdIcpr1 w).writeData = none ∧
    (exec (.rdIcpr1 w) State.reset matches .next _) = true := by decide
theorem witness_TransactionsChangeOnlyTheirBit :
    ([Instr.wrIser0 w 1, .wrIcer0 w 1, .wrIspr0 w 1, .wrIcpr0 w 1, .wrIpr0 w 1, .wrStir w 1].all
      fun i => exec i State.reset matches .next _) = true := by decide
theorem witness_HolesRefused :
    ¬ InRegister 0xE000E10C ∧ ¬ InRegister 0xE000E3FF ∧ ¬ InRegister 0xE000E0FF ∧
    ¬ InRegister 0xE000E454 := by
  refine ⟨?_, ?_, ?_, ?_⟩ <;> unfold InRegister <;> decide
theorem witness_UnprivilegedLearnsNothing :
    (transact ⟨.write 3, 0xE000EF00, 4, false⟩
      { State.reset with env := ⟨true, 0, false, 16, false⟩ } matches .next _) = true := by decide
theorem witness_UnprivilegedChangesNothing : State.reset.env.userSetMPend = false ∧
    (transact ⟨.write 8, 0xE000E200, 4, false⟩ State.reset matches .next _) = true := by decide
theorem witness_StepRunsDecoded : (sc [readIser1]).inputs = readIser1 :: [] ∧
    (decode ⟨.read, 0xE000E104, 4, true⟩ matches .ok (.rdIser1 ⟨true, 4, 0⟩)) = true := by decide
theorem witness_StepIdles : State.reset.inputs = [] := by decide
theorem witness_SampleEvent : (sc [.sample 1]).inputs = .sample 1 :: [] := by decide
theorem witness_EntryEvent_MayEnterIsNotActive :
    (sc [.entry 9] nested).inputs = .entry 9 :: [] ∧ (sc [.entry 9] nested).mayEnter 9 = true := by decide
theorem witness_EntryNeedsMayEnter :
    (sc [.entry 7] nested).inputs = .entry 7 :: [] ∧ (sc [.entry 7] nested).mayEnter 7 = false := by decide
theorem witness_ReturnEvent : (sc [.ret 7 true] nested).inputs = .ret 7 true :: [] ∧
    7 < nested.cfg.numIrq ∧ (nested.irq 7).act = true := by decide
theorem witness_ReturnNeedsActive : (sc [.ret 9 true] nested).inputs = .ret 9 true :: [] ∧
    (nested.irq 9).act = false := by decide
theorem witness_ResetEvent : (sc [.reset] nested).inputs = .reset :: [] ∧
    (Instr.rdIpr20 ⟨true, 2, 2⟩).writeData = none ∧ (Instr.rdIpr20 ⟨true, 2, 2⟩).register ≠ .stir ∧
    (Instr.rdIpr20 ⟨true, 2, 2⟩).access.priv = true ∧ (Instr.rdIpr20 ⟨true, 2, 2⟩).formatOk = true := by
  decide
theorem witness_OnlyPrivilegedOpensTrigger :
    (match deliver (.setUserSetMPend true true) State.reset with
      | .next t => t.env.userSetMPend
      | _ => false) = true ∧ State.reset.env.userSetMPend = false := by decide
theorem witness_StepKeepsLevelInv_StepKeepsQuietInv :
    (sc [.sample 1]).LevelInv ∧ (sc [.sample 1]).QuietInv ∧
    after 0 (step (sc [.sample 1])) = some (q false true false 0 true) :=
  ⟨fun n => by simp [sc, Irq.reset], fun n _ => by simp [sc], by decide⟩
theorem witness_StepKeepsActiveGroupsDistinct_AtMostSixteenActive :
    Input.rewritesPriority (.entry 9) = false ∧ (sc [.entry 9] nested).ActiveGroupsDistinct ∧
    after 9 (step (sc [.entry 9] nested)) = some (q true false true 2 false) := by
  refine ⟨by decide, fun a b _ _ ha hb hab => absurd ?_ hab, by decide⟩
  have h : ∀ n, ((sc [.entry 9] nested).irq n).act = true → n = 7 := by
    intro n hn
    simp only [sc, nested, mk, List.foldl_cons, List.foldl_nil, State.with_inputs_irq,
      State.irq_updateIrq, State.reset_irq] at hn
    by_contra h7
    simp [h7, q, Irq.reset] at hn
    split at hn <;> simp_all
  rw [h a ha, h b hb]
theorem witness_ActiveOnlyFromEntryToReturn :
    after 9 (step (sc [.entry 9] nested)) = some (q true false true 2 false) ∧
    after 7 (step (sc [.ret 7 false] nested)) = some (q true false false 3 false) ∧
    after 7 (step (sc [.reset] nested)) = some Irq.reset := by decide
theorem witness_PendingEndsOnlyBy :
    after 9 (step (sc [.entry 9] nested)) = some (q true false true 2 false) ∧
    after 9 (step (sc [.reset] nested)) = some Irq.reset ∧
    after 9 (step (sc [.bus ⟨.write 0x200, 0xE000E280, 4, true⟩] nested)) =
      some (q true false false 2 false) := by decide
theorem witness_EnableChangesOnlyByWrites :
    after 9 (step (sc [.bus ⟨.write 0x200, 0xE000E180, 4, true⟩] nested)) =
      some (q false true false 2 false) ∧
    after 8 (step (sc [.bus ⟨.write 0x100, 0xE000E100, 4, true⟩] nested)) =
      some (q true false false 0 false) ∧
    after 9 (step (sc [.reset] nested)) = some Irq.reset := by decide
theorem witness_StepKeepsActiveGroupsDistinct_rewrite :
    Input.rewritesPriority (.bus ⟨.write 0x20, 0xE000E409, 1, true⟩) = true ∧
    Input.rewritesPriority (.bus ⟨.write 0x20, 0xE000E409, 1, false⟩) = false ∧
    (∀ n, (State.reset.irq n).act = false) ∧ State.reset.ActiveGroupsDistinct :=
  ⟨by decide, by decide, fun n => by simp [Irq.reset], fun a b _ _ h => by simp [Irq.reset] at h⟩
theorem witness_RequestIsEnabledAndPending :
    nested.request = some 9 ∧ State.reset.request = none ∧
    (State.reset.irq 5).en = false ∧ (State.reset.irq 5).act = false ∧
    ((mk [(5, q false false true 0 false)]).irq 5).act = true ∧
    after 5 (deliver (.sample 0x20) (mk [(5, q false false true 0 false)])) =
      some (q false true true 0 true) := by decide
theorem witness_HeldLevelIsServicedAgain :
    5 < (mk [(5, q true false false 0 false)]).cfg.numIrq ∧
    ((mk [(5, q true false false 0 false)]).irq 5).act = false ∧ (0x20 : Signals).getLsbD 5 = true ∧
    ((mk [(5, q true false false 0 false)]).sampleSignals 0x20).mayEnter 5 = true := by decide
theorem witness_PulsesDuringIsrLeaveOneRequest :
    7 < nested.cfg.numIrq ∧ (nested.irq 7).act = true ∧ (nested.irq 7).pend = false ∧
    (nested.irq 7).line = false := by decide
theorem witness_CmsisEnableDisable_CmsisPending_CmsisStatusReads_CmsisPriority :
    80 < State.reset.cfg.numIrq := by decide

end Sys2Proof.Machine.Tests
end

section
/-! PROOF. Who changes what of an interrupt (10_state.md rules R31 to R35, R39, R49, R51): first each
change of one interrupt, then a register's write, an operation, an input and a step; the obligations
are read off these. -/

namespace Sys2Proof.Machine

/-! ## What each change of one interrupt leaves -/

@[simp] theorem Irq.enabled_pend (q : Irq) : q.enabled.pend = q.pend := rfl
@[simp] theorem Irq.enabled_act (q : Irq) : q.enabled.act = q.act := rfl
@[simp] theorem Irq.enabled_pri (q : Irq) : q.enabled.pri = q.pri := rfl
@[simp] theorem Irq.enabled_line (q : Irq) : q.enabled.line = q.line := rfl

@[simp] theorem Irq.disabled_pend (q : Irq) : q.disabled.pend = q.pend := rfl
@[simp] theorem Irq.disabled_act (q : Irq) : q.disabled.act = q.act := rfl
@[simp] theorem Irq.disabled_pri (q : Irq) : q.disabled.pri = q.pri := rfl
@[simp] theorem Irq.disabled_line (q : Irq) : q.disabled.line = q.line := rfl

@[simp] theorem Irq.pended_en (q : Irq) : q.pended.en = q.en := rfl
@[simp] theorem Irq.pended_act (q : Irq) : q.pended.act = q.act := rfl
@[simp] theorem Irq.pended_pri (q : Irq) : q.pended.pri = q.pri := rfl
@[simp] theorem Irq.pended_line (q : Irq) : q.pended.line = q.line := rfl

/-- The clear-pending write in one equation: `PEND` survives only an asserted signal. -/
theorem Irq.unpended_eq (q : Irq) : q.unpended = { q with pend := q.pend && q.line } := by
  cases q with | mk en pend act pri line => cases line <;> simp [Irq.unpended]

@[simp] theorem Irq.unpended_en (q : Irq) : q.unpended.en = q.en := by rw [Irq.unpended_eq]
@[simp] theorem Irq.unpended_act (q : Irq) : q.unpended.act = q.act := by rw [Irq.unpended_eq]
@[simp] theorem Irq.unpended_pri (q : Irq) : q.unpended.pri = q.pri := by rw [Irq.unpended_eq]
@[simp] theorem Irq.unpended_line (q : Irq) : q.unpended.line = q.line := by rw [Irq.unpended_eq]

@[simp] theorem Irq.reprioritized_en (p : Level) (q : Irq) : (q.reprioritized p).en = q.en := rfl
@[simp] theorem Irq.reprioritized_pend (p : Level) (q : Irq) :
    (q.reprioritized p).pend = q.pend := rfl
@[simp] theorem Irq.reprioritized_act (p : Level) (q : Irq) : (q.reprioritized p).act = q.act := rfl
@[simp] theorem Irq.reprioritized_line (p : Level) (q : Irq) :
    (q.reprioritized p).line = q.line := rfl

@[simp] theorem Irq.sampled_en (new : Bool) (q : Irq) : (q.sampled new).en = q.en := rfl
@[simp] theorem Irq.sampled_act (new : Bool) (q : Irq) : (q.sampled new).act = q.act := rfl

@[simp] theorem Irq.entered_en (q : Irq) : q.entered.en = q.en := rfl
@[simp] theorem Irq.entered_act (q : Irq) : q.entered.act = true := rfl

@[simp] theorem Irq.returned_en (level : Bool) (q : Irq) : (q.returned level).en = q.en := rfl
@[simp] theorem Irq.returned_act (level : Bool) (q : Irq) : (q.returned level).act = false := rfl

@[simp] theorem Irq.reset_act : Irq.reset.act = false := rfl

/-! ## What a register's write can change -/

/-- The changes by kind: an enable register touches `EN`, a pending register or STIR `PEND`, a
priority register `PRI`, and every other register nothing. -/
theorem Register.allows_kinds {r : Register} {q q' : Irq} (h : Register.Allows r q q') :
    q' = q ∨
    (r ∈ [Register.iser0, .iser1, .iser2, .icer0, .icer1, .icer2] ∧
      (q' = q.enabled ∨ q' = q.disabled)) ∨
    (r ∈ [Register.ispr0, .ispr1, .ispr2, .icpr0, .icpr1, .icpr2, .stir] ∧
      (q' = q.pended ∨ q' = q.unpended)) ∨
    (r.byteAccessible = true ∧ ∃ p, q' = q.reprioritized p) := by
  cases r
  case iser0 | iser1 | iser2 => exact h.imp_right fun hq => .inl ⟨by decide, .inl hq⟩
  case icer0 | icer1 | icer2 => exact h.imp_right fun hq => .inl ⟨by decide, .inr hq⟩
  case ispr0 | ispr1 | ispr2 | stir =>
    exact h.imp_right fun hq => .inr (.inl ⟨by decide, .inl hq⟩)
  case icpr0 | icpr1 | icpr2 => exact h.imp_right fun hq => .inr (.inl ⟨by decide, .inr hq⟩)
  case iabr0 | iabr1 | iabr2 => exact .inl h
  all_goals exact h.imp_right fun hq => .inr (.inr ⟨rfl, hq⟩)

/-- Settles O26: each kind of change leaves the components that are not its own. -/
theorem transactionsChangeOnlyTheirBit : Obligations.TransactionsChangeOnlyTheirBit := by
  intro i s t h n
  obtain hq | ⟨hr, hq | hq⟩ | ⟨hr, hq | hq⟩ | ⟨hr, p, hq⟩ :=
    Register.allows_kinds ((exec_touched h).allowed n)
  · simp [hq]
  all_goals simp [hq, hr]

/-! ## What a step takes from the script -/

/-- With a first input in the script, the step delivers it. -/
theorem step_of_inputs {s : State} {e : Input} {rest : List Input} (h : s.inputs = e :: rest) :
    step s = deliver e { s with inputs := rest } := by
  simp [step, State.takeInput, h]

/-- Settles O31: there is no input to take. -/
theorem stepIdles : Obligations.StepIdles := by
  intro s h
  simp [step, State.takeInput, h]

/-! ## The device and the places of no interrupt -/

theorem deliver_cfg {e : Input} {s t : State} (h : deliver e s = .next t) : t.cfg = s.cfg := by
  obtain ⟨_, _, -, -, hx⟩ | ⟨_, -, rfl⟩ | ⟨_, -, -, rfl⟩ | ⟨_, _, -, -, -, rfl⟩ | ⟨-, rfl⟩ |
    ⟨_, rfl, -⟩ := deliver_next h
  · exact (exec_touched hx).cfg
  all_goals rfl

theorem deliver_irq_of_not_implemented {e : Input} {s t : State} {n : Nat}
    (h : deliver e s = .next t) (hn : s.implemented n = false) : t.irq n = s.irq n := by
  obtain ⟨_, _, -, -, hx⟩ | ⟨_, -, rfl⟩ | ⟨_, -, -, rfl⟩ | ⟨_, _, -, -, -, rfl⟩ | ⟨-, rfl⟩ |
    ⟨_, rfl, -⟩ := deliver_next h
  · exact (exec_touched hx).quiet n hn
  all_goals simp [hn]

theorem deliver_keeps_quietInv {e : Input} {s t : State} (hq : s.QuietInv)
    (h : deliver e s = .next t) : t.QuietInv := by
  intro n hn
  have hs : s.implemented n = false := by
    rwa [State.implemented, deliver_cfg h] at hn
  rw [deliver_irq_of_not_implemented h hs, hq n hs]

/-- Settles O48: an input changes implemented interrupts alone, and never which are implemented. -/
theorem stepKeepsQuietInv : Obligations.StepKeepsQuietInv := by
  intro s t hq h
  obtain ⟨-, rfl⟩ | ⟨e, rest, -, hd⟩ := step_next h
  · exact hq
  · exact deliver_keeps_quietInv (s := { s with inputs := rest }) hq hd

/-! ## Which inputs change `ACT` -/

/-- An input leaves `ACT[n]`, or is the entry of `n` that sets it, or clears it as the return of `n`
or a reset. -/
theorem deliver_act {e : Input} {s t : State} (h : deliver e s = .next t) (n : Nat) :
    (t.irq n).act = (s.irq n).act ∨
    (e = .entry n ∧ (t.irq n).act = true) ∨
    (((∃ l, e = .ret n l) ∨ e = .reset) ∧ (t.irq n).act = false) := by
  obtain ⟨_, _, -, -, hx⟩ | ⟨_, -, rfl⟩ | ⟨m, rfl, -, rfl⟩ | ⟨m, l, rfl, -, -, rfl⟩ | ⟨rfl, rfl⟩ |
    ⟨_, rfl, -⟩ := deliver_next h
  · exact .inl (transactionsChangeOnlyTheirBit _ s t hx n).1
  · exact .inl (by simp [apply_ite Irq.act])
  · by_cases hm : s.implemented n = true ∧ n = m
    · obtain ⟨hi, rfl⟩ := hm
      right; left; simp [hi]
    · left; simp [hm]
  · by_cases hm : s.implemented n = true ∧ n = m
    · obtain ⟨hi, rfl⟩ := hm
      right; right; simp [hi]
    · left; simp [hm]
  · by_cases hm : s.implemented n = true
    · right; right; simp [hm]
    · left; simp [hm]
  · exact .inl rfl

/-- Settles O52: the two changes of `ACT[n]` are those that `deliver_act` leaves. -/
theorem activeOnlyFromEntryToReturn : Obligations.ActiveOnlyFromEntryToReturn := by
  intro s t e rest n hs h
  rw [step_of_inputs hs] at h
  obtain hk | ⟨he, ht⟩ | ⟨he, ht⟩ := deliver_act h n
  · rw [State.with_inputs_irq] at hk
    constructor <;> intro h0 h1 <;> simp [hk, h0] at h1
  · exact ⟨fun _ _ => he, fun _ h0 => by simp [ht] at h0⟩
  · exact ⟨fun _ h1 => by simp [ht] at h1, fun _ _ => he⟩

/-! ## Which inputs change `EN` -/

/-- A write to a register with one bit for each interrupt leaves those whose bit is 0. -/
theorem writeBits_irq_of_not_selected {k : Nat} {f : Irq → Irq} {a : Access} {d : Word}
    {s t : State} {n : Nat} (h : writeBits k f a d s = .next t) (hn : selected k d n = false) :
    t.irq n = s.irq n := by
  obtain ⟨-, rfl⟩ | ⟨-, -, h⟩ := checked_next_iff.mp h
  · rfl
  · cases h; simp [hn]

/-- The write of an enable register is the write of one bit for each interrupt. -/
theorem write_of_enableRegister {r : Register}
    (hr : r ∈ [Register.iser0, .iser1, .iser2, .icer0, .icer1, .icer2]) :
    ∃ c k f, (c, k) ∈ Claims.iserWrites ++ Claims.icerWrites ∧
      (∀ a d, Instr.write r a d = c a d) ∧ ∀ a d s, exec (c a d) s = writeBits k f a d s := by
  simp only [List.mem_cons, List.not_mem_nil, or_false] at hr
  obtain rfl | rfl | rfl | rfl | rfl | rfl := hr
  · exact ⟨.wrIser0, 0, Irq.enabled, by simp [Claims.iserWrites], fun _ _ => rfl, fun _ _ _ => rfl⟩
  · exact ⟨.wrIser1, 1, Irq.enabled, by simp [Claims.iserWrites], fun _ _ => rfl, fun _ _ _ => rfl⟩
  · exact ⟨.wrIser2, 2, Irq.enabled, by simp [Claims.iserWrites], fun _ _ => rfl, fun _ _ _ => rfl⟩
  · exact ⟨.wrIcer0, 0, Irq.disabled, by simp [Claims.icerWrites], fun _ _ => rfl, fun _ _ _ => rfl⟩
  · exact ⟨.wrIcer1, 1, Irq.disabled, by simp [Claims.icerWrites], fun _ _ => rfl, fun _ _ _ => rfl⟩
  · exact ⟨.wrIcer2, 2, Irq.disabled, by simp [Claims.icerWrites], fun _ _ => rfl, fun _ _ _ => rfl⟩

/-- An operation that changes an interrupt is a write. -/
theorem exists_writeData_of_irq_ne {i : Instr} {s t : State} {n : Nat} (h : exec i s = .next t)
    (hne : t.irq n ≠ s.irq n) : ∃ d, i.writeData = some d := by
  refine Option.ne_none_iff_exists'.mp fun hw => hne ?_
  rw [State.irq, (exec_touched h).reads hw, State.irq]

/-- An operation that changes `EN[n]` writes a 1 to the bit of `n` in ISER or ICER. -/
theorem exec_en_changed {i : Instr} {s t : State} {n : Nat} (h : exec i s = .next t)
    (hne : (t.irq n).en ≠ (s.irq n).en) :
    ∃ c k a d, (c, k) ∈ Claims.iserWrites ++ Claims.icerWrites ∧ i = c a d ∧
      n / 32 = k ∧ d.getLsbD (n % 32) = true := by
  have hirq : t.irq n ≠ s.irq n := fun he => hne (congrArg Irq.en he)
  obtain ⟨-, -, hen, -⟩ := transactionsChangeOnlyTheirBit i s t h n
  obtain ⟨d, hd⟩ := exists_writeData_of_irq_ne h hirq
  obtain ⟨c, k, f, hc, hwrite, hexec⟩ := write_of_enableRegister (not_imp_comm.mp hen hne)
  have hi : i = c i.access d := (Instr.eq_write hd).trans (hwrite _ _)
  rw [hi, hexec] at h
  have hsel : selected k d n = true := by
    by_contra hs
    exact hirq (writeBits_irq_of_not_selected h (by simpa using hs))
  simp only [selected, Bool.and_eq_true, decide_eq_true_eq] at hsel
  exact ⟨c, k, i.access, d, hc, hi, hsel⟩

/-- Only a transaction or a reset changes `EN`. -/
theorem deliver_en {e : Input} {s t : State} (h : deliver e s = .next t) (n : Nat) :
    (t.irq n).en = (s.irq n).en ∨ e = .reset ∨
      ∃ x i, e = .bus x ∧ decode x = .ok i ∧ exec i s = .next t := by
  obtain hbus | ⟨x, -, rfl⟩ | ⟨m, -, -, rfl⟩ | ⟨m, l, -, -, -, rfl⟩ | ⟨he, -⟩ | ⟨v, rfl, -⟩ :=
    deliver_next h
  · exact .inr (.inr hbus)
  · exact .inl (by simp [apply_ite Irq.en])
  · exact .inl (by simp [apply_ite Irq.en])
  · exact .inl (by simp [apply_ite Irq.en])
  · exact .inr (.inl he)
  · exact .inl rfl

/-- Settles O54: the input is a reset, or its operation is one that `exec_en_changed` finds. -/
theorem enableChangesOnlyByWrites : Obligations.EnableChangesOnlyByWrites := by
  intro s t e rest n hs h hne
  rw [step_of_inputs hs] at h
  obtain hk | he | ⟨x, i, he, hdec, hx⟩ := deliver_en h n
  · exact absurd hk hne
  · exact .inl he
  · obtain ⟨c, k, a, d, hc, rfl, hk, hd⟩ := exec_en_changed hx hne
    exact .inr ⟨x, c, k, a, d, he, hc, hdec, hk, hd⟩

/-! ## Reset -/

/-- Settles O38: every interrupt of `State.reset` is `Irq.reset`, whose components are the zeros of
rule R49. -/
theorem resetState : Obligations.ResetState := by
  intro n
  rw [State.reset_irq, Irq.reset]

end Sys2Proof.Machine
end

section
/-! PROOF. Transactions (20_memory.md): which addresses belong to a register and what happens
outside them (rules R76, R77), what the checks of privilege, size and alignment decide (rules R72,
R73, R78), what a read leaves (rule R75), what an unprivileged transaction changes and learns (rule
R78), and the inputs that are neither transactions nor events (rule R82, 10_state.md rule R37). -/

namespace Sys2Proof

/-! ## The address map -/

/-- Clearing the two low bits of an address gives the start of its word. -/
theorem toNat_and_wordMask (addr : Word) : (addr &&& 0xFFFFFFFC).toNat = addr.toNat / 4 * 4 := by
  have hmask : addr &&& (0xFFFFFFFC : Word) = addr >>> 2 <<< 2 := by
    apply BitVec.eq_of_getLsbD_eq
    intro i hi
    have hbit : ∀ j : Fin 32, (0xFFFFFFFC : Word).getLsbD j = decide (2 ≤ j.val) := by decide
    rw [BitVec.getLsbD_and, hbit ⟨i, hi⟩]
    by_cases h2 : 2 ≤ i
    · simp [h2, hi, show ¬ i < 2 by omega]
    · simp [h2, show i < 2 by omega]
  have := addr.isLt
  rw [hmask, BitVec.toNat_shiftLeft, BitVec.toNat_ushiftRight, Nat.shiftRight_eq_div_pow,
    Nat.shiftLeft_eq]
  omega

theorem Register.base_mod_four (r : Register) : r.base.toNat % 4 = 0 := by
  cases r <;> rfl

/-- An address decodes to a register exactly when it is one of the register's four bytes. -/
theorem registerAt_eq_some_iff_mem_word {addr : Word} {r : Register} :
    registerAt addr = some r ↔ r.base.toNat ≤ addr.toNat ∧ addr.toNat < r.base.toNat + 4 := by
  have := r.base_mod_four
  rw [registerAt_eq_some, ← BitVec.toNat_inj, toNat_and_wordMask]
  omega

/-- The windows of rule R76: the first address of each and the number of registers in it.  The
priority registers end at 0xE000E453 (the spec's decision D19). -/
def addressWindows : List (Nat × Nat) :=
  [(0xE000E100, 3), (0xE000E180, 3), (0xE000E200, 3), (0xE000E280, 3), (0xE000E300, 3),
   (0xE000E400, 21), (0xE000EF00, 1)]

theorem inRegister_iff_addressWindows {addr : Word} :
    Claims.InRegister addr ↔
      ∃ w ∈ addressWindows, w.1 ≤ addr.toNat ∧ addr.toNat < w.1 + 4 * w.2 := by
  simp only [Claims.InRegister, addressWindows, List.mem_cons, List.not_mem_nil, or_false,
    exists_eq_or_imp, exists_eq_left]
  omega

/-- Every register's four bytes lie in one of the windows. -/
theorem Register.mem_addressWindows (r : Register) :
    ∃ w ∈ addressWindows, w.1 ≤ r.base.toNat ∧ r.base.toNat + 4 ≤ w.1 + 4 * w.2 := by
  cases r <;> decide

/-- Every word of a window is a register's. -/
theorem register_of_addressWindows :
    ∀ w ∈ addressWindows, ∀ k < w.2, ∃ r ∈ registers, r.base.toNat = w.1 + 4 * k := by
  decide

/-- Settles O3: the registers' words fill the windows, and lie in no other place. -/
theorem addressMap : Obligations.AddressMap := by
  intro addr
  simp only [Option.isSome_iff_exists, registerAt_eq_some_iff_mem_word,
    inRegister_iff_addressWindows]
  constructor
  · rintro ⟨r, hlo, hhi⟩
    obtain ⟨w, hw, hbase, hend⟩ := r.mem_addressWindows
    exact ⟨w, hw, by omega, by omega⟩
  · rintro ⟨w, hw, hlo, hhi⟩
    obtain ⟨r, -, hr⟩ := register_of_addressWindows w hw ((addr.toNat - w.1) / 4) (by omega)
    exact ⟨r, by omega, by omega⟩

/-- An operation has the privilege, size and byte offset of the transaction it is decoded from. -/
theorem decode_access {t : Transaction} {i : Instr} (h : decode t = .ok i) :
    i.access = t.access := by
  unfold decode at h
  split at h
  · cases h
  · split at h <;> cases h <;> simp [Instr.access]

end Sys2Proof

namespace Sys2Proof.Machine

/-! ## Addresses of no register -/

theorem transact_of_decode {t : Transaction} {i : Instr} (h : decode t = .ok i) (s : State) :
    transact t s = exec i s := by
  simp only [transact, h]

/-- A transaction at an address of no register is refused by where the address lies. -/
theorem transact_of_not_inRegister {t : Transaction} (h : ¬ Claims.InRegister t.addr)
    (s : State) :
    transact t s = .refused
      (if inMainBlock t.addr then .hole t.addr else .outsideNvic t.addr) := by
  have hnone : registerAt t.addr = none := by
    rwa [← Option.not_isSome_iff_eq_none, addressMap]
  simp only [transact, decode, hnone]
  split <;> rfl

theorem inMainBlock_iff {addr : Word} :
    inMainBlock addr = true ↔ 0xE000E100 ≤ addr.toNat ∧ addr.toNat ≤ 0xE000E453 := by
  simp [inMainBlock]

/-- Settles O27: the step is the transaction, and its address decodes to no operation. -/
theorem holesRefused : Obligations.HolesRefused := by
  intro t s rest hs haddr
  rw [step_of_inputs hs]
  simp only [deliver, transact_of_not_inRegister haddr, inMainBlock_iff]

/-! ## The checks of an operation -/

/-- An operation passes its privilege check when it is privileged, or accesses STIR while
USERSETMPEND is 1. -/
theorem permitted_iff {i : Instr} {s : State} :
    permitted i s = true ↔
      i.access.priv = true ∨ i.register = .stir ∧ s.env.userSetMPend = true := by
  unfold permitted stirPermitted
  split <;> simp [*]

/-- An operation that fails its privilege check is an access fault, before any other check. -/
theorem exec_of_not_permitted {i : Instr} {s : State} (h : permitted i s = false) :
    exec i s = .next (s.respond .accessFault) := by
  obtain ⟨run, hrun, -, -⟩ := exec_checked i s
  rw [hrun, h, checked_denied]

/-- An operation that passes its privilege check and has a wrong format is refused for it. -/
theorem exec_of_wrong_format {i : Instr} {s : State} {x : Refusal} (hp : permitted i s = true)
    (hf : formatOf i = some x) : exec i s = .refused x := by
  obtain ⟨run, hrun, -, -⟩ := exec_checked i s
  rw [hrun, hp, hf, checked_unsupported]

/-- Settles O22: privilege is all that a register other than STIR asks. -/
theorem unprivilegedIsAccessFault : Obligations.UnprivilegedIsAccessFault := by
  intro i s hr hpriv
  have hp : permitted i s = false := by
    simp [Bool.eq_false_iff, permitted_iff, hr, hpriv]
  exact exec_of_not_permitted hp

/-- Settles O23: the format check names one of two reasons. -/
theorem wrongFormatRefused : Obligations.WrongFormatRefused := by
  intro i s hperm hformat
  have hsome : formatOf i ≠ none := by simp [formatOf_eq_none, hformat]
  obtain ⟨x, hx⟩ := Option.ne_none_iff_exists'.mp hsome
  have hexec := exec_of_wrong_format (permitted_iff.mpr hperm) hx
  obtain rfl | rfl := formatOf_some hx
  · exact .inl hexec
  · exact .inr hexec

/-! ## Reads -/

/-- Settles O25: a read touches the answer and the count of free values alone. -/
theorem readsChangeNothing : Obligations.ReadsChangeNothing := by
  intro i s t hread h
  have htouched := exec_touched h
  exact ⟨htouched.reads hread, htouched.cfg, htouched.env, htouched.inputs⟩

/-! ## Unprivileged transactions -/

/-- The operation of an unprivileged transaction is unprivileged. -/
theorem priv_of_decode {t : Transaction} {i : Instr} (h : decode t = .ok i)
    (hpriv : t.priv = false) : i.access.priv = false := by
  rw [decode_access h]
  exact hpriv

/-- Settles O29: no operation of the transaction passes its privilege check. -/
theorem unprivilegedChangesNothing : Obligations.UnprivilegedChangesNothing := by
  intro t s s' hpriv huser h
  obtain ⟨i, hdec, hexec⟩ := transact_next h
  have hp : permitted i s = false := by
    simp [Bool.eq_false_iff, permitted_iff, priv_of_decode hdec hpriv, huser]
  rw [exec_of_not_permitted hp] at hexec
  cases hexec
  rfl

/-- What a read of STIR answers depends on the inputs and the count of free values, not on the
interrupts. -/
theorem execRdStir_answer_irqs {a : Access} {s s' : State} (h : execRdStir a s = .next s')
    (v : Vector Irq 81) :
    ∃ s'', execRdStir a { s with irqs := v } = .next s'' ∧ s''.answer = s'.answer := by
  obtain ⟨hp, rfl⟩ | ⟨hp, hf, hrun⟩ := checked_next_iff.mp h
  · exact ⟨_, checked_next_iff.mpr (.inl ⟨hp, rfl⟩), rfl⟩
  · cases hrun
    exact ⟨_, checked_next_iff.mpr (.inr ⟨hp, hf, rfl⟩), rfl⟩

/-- What a write to STIR answers depends on its data and the inputs, not on the interrupts. -/
theorem execWrStir_answer_irqs {a : Access} {d : Word} {s s' : State}
    (h : execWrStir a d s = .next s') (v : Vector Irq 81) :
    ∃ s'', execWrStir a d { s with irqs := v } = .next s'' ∧ s''.answer = s'.answer := by
  obtain ⟨hp, rfl⟩ | ⟨hp, hf, hrun⟩ := checked_next_iff.mp h
  · exact ⟨_, checked_next_iff.mpr (.inl ⟨hp, rfl⟩), rfl⟩
  · cases hd : stirReservedClear d <;> rw [hd] at hrun <;> cases hrun
    exact ⟨(State.updateIrq { s with irqs := v } (intId d) Irq.pended).respond .done,
      checked_next_iff.mpr (.inr ⟨hp, hf, by rw [hd]⟩), rfl⟩

/-- What an operation on STIR answers does not depend on the interrupts. -/
theorem exec_stir_answer_irqs {i : Instr} {s s' : State} (hr : i.register = .stir)
    (h : exec i s = .next s') (v : Vector Irq 81) :
    ∃ s'', exec i { s with irqs := v } = .next s'' ∧ s''.answer = s'.answer := by
  cases hw : i.writeData with
  | none =>
    have hi := Instr.eq_read hw
    rw [hr] at hi
    rw [hi] at h ⊢
    exact execRdStir_answer_irqs h v
  | some d =>
    have hi := Instr.eq_write hw
    rw [hr] at hi
    rw [hi] at h ⊢
    exact execWrStir_answer_irqs h v

/-- Settles O28: STIR's answer does not depend on the interrupts, and every other register answers
an access fault in both states. -/
theorem unprivilegedLearnsNothing : Obligations.UnprivilegedLearnsNothing := by
  intro t s s' v hpriv h
  obtain ⟨i, hdec, hexec⟩ := transact_next h
  rw [transact_of_decode hdec]
  by_cases hr : i.register = .stir
  · exact exec_stir_answer_irqs hr hexec v
  · have hfault := fun u => unprivilegedIsAccessFault i u hr (priv_of_decode hdec hpriv)
    rw [hfault s] at hexec
    cases hexec
    exact ⟨_, hfault _, rfl⟩

/-! ## The other inputs -/

/-- Of the inputs of the processor, `may_enter` depends on the priority grouping and on the two
masks. -/
theorem mayEnter_congr_of_masks {s t : State} (hc : t.cfg = s.cfg) (hi : t.irqs = s.irqs)
    (hg : t.env.priGroup = s.env.priGroup) (hd : t.env.intDisabled = s.env.intDisabled)
    (hb : t.env.acceptBelow = s.env.acceptBelow) (n : Nat) : t.mayEnter n = s.mayEnter n := by
  have hgroup : t.group n = s.group n := by simp only [State.group, State.irq, hi, hg]
  simp only [State.mayEnter, State.coreAccepts, request_congr hc hi, activeGroup_congr hc hi hg,
    hgroup, hd, hb]

/-- Settles O41: each input's step is its arm of `deliver`; the selection reads no NMI. -/
theorem otherInputs : Obligations.OtherInputs := by
  intro s rest
  refine ⟨fun _ => rfl, fun _ => rfl, fun _ => rfl, fun _ => rfl, fun _ => rfl, rfl, rfl,
    fun l => ⟨_, rfl, rfl, rfl, ?_, fun n => ?_⟩⟩
  · exact request_congr rfl rfl
  · exact mayEnter_congr_of_masks rfl rfl rfl rfl rfl n

end Sys2Proof.Machine
end

section
/-! PROOF. The encoding (30_encoding.md): the decoder undoes the encoder (rules R100 to R104), also
through the model's numbering of a transaction as bits (assumption 4); a register owns its four
bytes (rule R101); which privileged operations complete (rules R100, R101, R165). -/

namespace Sys2Proof

/-! ## The decoder and the encoder, a direction at a time -/

theorem decode_of_read {t : Transaction} {r : Register} (hr : registerAt t.addr = some r)
    (hdir : t.dir = .read) : decode t = .ok (Instr.read r t.access) := by
  simp only [decode, hr, hdir]

theorem decode_of_write {t : Transaction} {r : Register} {d : Word}
    (hr : registerAt t.addr = some r) (hdir : t.dir = .write d) :
    decode t = .ok (Instr.write r t.access (carried t.size d)) := by
  simp only [decode, hr, hdir]

theorem registerAt_encode (i : Instr) : registerAt (encode i).addr = some i.register :=
  registerAt_address i.register i.access.lane

@[simp] theorem encode_size (i : Instr) : (encode i).size = i.access.size := rfl

/-- The byte offset survives the encoding, because a register's address ends in two 0 bits. -/
@[simp] theorem encode_access (i : Instr) : (encode i).access = i.access := by
  have hlane : (encode i).addr.extractLsb' 0 2 = i.access.lane :=
    address_lane i.register i.access.lane
  rw [Transaction.access, hlane]
  rfl

theorem encode_dir_of_read {i : Instr} (h : i.writeData = none) : (encode i).dir = .read := by
  simp only [encode, h]

theorem encode_dir_of_write {i : Instr} {d : Word} (h : i.writeData = some d) :
    (encode i).dir = .write d := by
  simp only [encode, h]

theorem Instr.dataFits_iff_of_write {i : Instr} {d : Word} (h : i.writeData = some d) :
    i.dataFits = true ↔ d.toNat < 2 ^ (8 * min i.access.size 4) := by
  simp only [Instr.dataFits, h, decide_eq_true_eq]

/-- Settles O1: the encoded address gives back the register and the byte offset, and the data fits
the size that carries it. -/
theorem decodeOfEncode : Obligations.DecodeOfEncode := by
  intro i hfits
  cases hw : i.writeData with
  | none =>
    rw [decode_of_read (registerAt_encode i) (encode_dir_of_read hw), encode_access,
      ← Instr.eq_read hw]
  | some d =>
    have hcarried := carried_of_fits ((Instr.dataFits_iff_of_write hw).mp hfits)
    rw [decode_of_write (registerAt_encode i) (encode_dir_of_write hw), encode_access, encode_size,
      hcarried, ← Instr.eq_write hw]

/-! ## A transaction as one number -/

/-- Bits 64:32 of a transaction's number: the write data, or bit 64 alone for a read. -/
def Direction.toBits : Direction → Nat
  | .write d => d.toNat
  | .read => 2 ^ 32

theorem Direction.toBits_lt (dir : Direction) : dir.toBits < 2 ^ 33 := by
  cases dir with
  | read => decide
  | write d => exact d.isLt.trans (by decide)

theorem codeOfSize_lt (n : Nat) : codeOfSize n < 4 := by
  unfold codeOfSize
  split <;> decide

/-- The number of a transaction, field by field. -/
theorem Transaction.toBits_eq (t : Transaction) :
    t.toBits = t.addr.toNat + 2 ^ 32 * t.dir.toBits
      + 2 ^ 65 * (!t.priv).toNat + 2 ^ 66 * codeOfSize t.size := by
  obtain ⟨dir, addr, size, priv⟩ := t
  cases dir <;> cases priv <;> rfl

theorem Transaction.toBits_lt (t : Transaction) : t.toBits < 2 ^ 68 := by
  have haddr := t.addr.isLt
  have hdir := t.dir.toBits_lt
  have hpriv := Bool.toNat_lt (!t.priv)
  have hsize := codeOfSize_lt t.size
  rw [t.toBits_eq]
  omega

theorem Transaction.ofBits_toBits_addr (t : Transaction) :
    (Transaction.ofBits t.toBits).addr = t.addr := by
  apply BitVec.eq_of_toNat_eq
  have haddr := t.addr.isLt
  rw [Transaction.ofBits, BitVec.toNat_ofNat, t.toBits_eq]
  omega

theorem Transaction.ofBits_toBits_dir (t : Transaction) :
    (Transaction.ofBits t.toBits).dir = t.dir := by
  have haddr := t.addr.isLt
  have hword : t.toBits / 2 ^ 32 =
      t.dir.toBits + 2 ^ 33 * ((!t.priv).toNat + 2 * codeOfSize t.size) := by
    rw [t.toBits_eq]
    omega
  have hbit : t.toBits.testBit 64 = decide (t.dir.toBits / 2 ^ 32 % 2 = 1) := by
    rw [Nat.testBit_eq_decide_div_mod_eq, decide_eq_decide]
    omega
  rw [Transaction.ofBits, hbit, hword]
  cases t.dir with
  | read => rfl
  | write d =>
    have hd := d.isLt
    have hclear : ¬ (Direction.write d).toBits / 2 ^ 32 % 2 = 1 := by
      simp only [Direction.toBits]
      omega
    simp only [hclear, decide_false, Bool.false_eq_true, if_false, Direction.write.injEq]
    apply BitVec.eq_of_toNat_eq
    rw [BitVec.toNat_ofNat, Direction.toBits]
    omega

theorem Transaction.ofBits_toBits_priv (t : Transaction) :
    (Transaction.ofBits t.toBits).priv = t.priv := by
  have haddr := t.addr.isLt
  have hdir := t.dir.toBits_lt
  have hpriv := Bool.toNat_lt (!t.priv)
  have hdigit : t.toBits / 2 ^ 65 % 2 = (!t.priv).toNat := by
    rw [t.toBits_eq]
    omega
  have hbit : t.toBits.testBit 65 = !t.priv := by
    rw [Nat.testBit_eq_decide_div_mod_eq, hdigit]
    cases t.priv <;> rfl
  rw [Transaction.ofBits, hbit, Bool.not_not]

theorem Transaction.ofBits_toBits_size (t : Transaction) :
    (Transaction.ofBits t.toBits).size = sizeOfCode (codeOfSize t.size) := by
  have haddr := t.addr.isLt
  have hdir := t.dir.toBits_lt
  have hpriv := Bool.toNat_lt (!t.priv)
  have hsize := codeOfSize_lt t.size
  have hcode : t.toBits / 2 ^ 66 % 4 = codeOfSize t.size := by
    rw [t.toBits_eq]
    omega
  rw [Transaction.ofBits, hcode]

theorem Transaction.eq_of_fields {t u : Transaction} (hdir : t.dir = u.dir)
    (haddr : t.addr = u.addr) (hsize : t.size = u.size) (hpriv : t.priv = u.priv) : t = u := by
  cases t
  cases u
  rw [Transaction.mk.injEq]
  exact ⟨hdir, haddr, hsize, hpriv⟩

/-- A transaction whose size has a code of its own is read back from its number. -/
theorem Transaction.ofBits_toBits {t : Transaction}
    (hsize : sizeOfCode (codeOfSize t.size) = t.size) : Transaction.ofBits t.toBits = t :=
  Transaction.eq_of_fields t.ofBits_toBits_dir t.ofBits_toBits_addr
    (t.ofBits_toBits_size.trans hsize) t.ofBits_toBits_priv

/-- The table word of a transaction decodes to its operation. -/
theorem decodeTableWord_toBits {t : Transaction} {i : Instr}
    (hsize : sizeOfCode (codeOfSize t.size) = t.size) (h : decode t = .ok i) :
    decodeTableWord 68 t.toBits = some i := by
  simp only [decodeTableWord, Nat.mod_eq_of_lt t.toBits_lt, Transaction.ofBits_toBits hsize, h]

/-- The three sizes of rule R100's formats. -/
theorem Instr.size_of_formatOk {i : Instr} (h : i.formatOk = true) :
    i.access.size = 1 ∨ i.access.size = 2 ∨ i.access.size = 4 := by
  unfold Instr.formatOk at h
  split at h
  · simp only [Access.isLanes, Bool.and_eq_true, Bool.or_eq_true, beq_iff_eq] at h
    omega
  · simp only [Access.isWord, Bool.and_eq_true, beq_iff_eq] at h
    omega

/-- Settles O2: the sizes of the formats have codes of their own, and the rest is O1. -/
theorem decodeTableWordOfBits : Obligations.DecodeTableWordOfBits := by
  intro i hwf
  simp only [Instr.wellFormed, Bool.and_eq_true] at hwf
  obtain ⟨⟨hformat, hfits⟩, -⟩ := hwf
  have hsize : sizeOfCode (codeOfSize (encode i).size) = (encode i).size := by
    rw [encode_size]
    obtain h | h | h := Instr.size_of_formatOk hformat <;> rw [h] <;> rfl
  exact decodeTableWord_toBits hsize (decodeOfEncode i hfits)

/-- Settles O5: each word is the number of a well-formed operation's transaction. -/
theorem tableWordsDecode : Obligations.TableWordsDecode :=
  ⟨decodeTableWordOfBits (.wrIser1 ⟨true, 4, 0⟩ 0x20) (by decide),
    decodeTableWordOfBits (.rdIcer2 ⟨true, 4, 0⟩) (by decide),
    decodeTableWordOfBits (.wrIspr0 ⟨true, 4, 0⟩ 8) (by decide),
    decodeTableWordOfBits (.rdIcpr1 ⟨true, 4, 0⟩) (by decide),
    decodeTableWordOfBits (.rdIabr0 ⟨true, 4, 0⟩) (by decide),
    decodeTableWordOfBits (.wrIpr9 ⟨true, 1, 1⟩ 0x5A) (by decide),
    decodeTableWordOfBits (.wrStir ⟨false, 4, 0⟩ 3) (by decide)⟩

/-! ## The rows of the decode table -/

/-- Settles O4: a register's address is word aligned, so its word is its four bytes. -/
theorem registerOwnsItsFourBytes : Obligations.RegisterOwnsItsFourBytes :=
  fun _ _ => registerAt_eq_some_iff_mem_word

end Sys2Proof

namespace Sys2Proof.Machine

/-! ## Running the decoded operation -/

/-- A permitted operation completes exactly when its format is right and it is no write to STIR with
reserved bits set. -/
theorem exec_next_iff_of_permitted {i : Instr} {s : State} (hp : permitted i s = true) :
    (∃ t, exec i s = .next t) ↔ i.formatOk = true ∧ i.reservedClear = true := by
  obtain ⟨run, hrun, hclear, hreserved⟩ := exec_checked i s
  have hexec : ∀ t, exec i s = .next t ↔ i.formatOk = true ∧ run = .next t := by
    simp [hrun, checked_next_iff, hp, formatOf_eq_none]
  simp only [hexec, exists_and_left, and_congr_right_iff]
  intro _
  refine ⟨fun ⟨t, ht⟩ => ?_, hclear⟩
  by_contra hc
  obtain ⟨d, -, hrefused⟩ := hreserved (by simpa using hc)
  rw [hrefused] at ht
  cases ht

/-- Settles O24: privilege passes every operation's first check. -/
theorem privilegedCompletesIffFormat : Obligations.PrivilegedCompletesIffFormat := by
  intro i s hpriv
  exact exec_next_iff_of_permitted (permitted_iff.mpr (.inl hpriv))

/-- Settles O30: the step delivers the transaction, which runs the operation it decodes to. -/
theorem stepRunsDecoded : Obligations.StepRunsDecoded := by
  intro t i s rest hs hdec
  rw [step_of_inputs hs]
  exact transact_of_decode hdec _

end Sys2Proof.Machine
end

section
/-! PROOF. The enable registers (40_enable_registers.md rules R130 to R133).  First what a privileged
four-byte access does to any register with one bit for each interrupt (30_encoding.md rules R101,
R102): its address, the one update or the one value, and its frame. -/

namespace Sys2Proof

/-- A privileged four-byte access is carried at the register's own address. -/
theorem encode_addr_of_privWord {i : Instr} {a : Access} (hi : i.access = a)
    (ha : Claims.PrivWord a) : (encode i).addr = i.register.base := by
  obtain ⟨-, -, hlane⟩ := ha
  simp [encode, hi, hlane]

end Sys2Proof

namespace Sys2Proof.Machine

/-! ## Registers with one bit for each interrupt -/

theorem selected_iff {k : Nat} {d : Word} {n : Nat} :
    selected k d n = true ↔ n / 32 = k ∧ d.getLsbD (n % 32) = true := by
  rw [selected, Bool.and_eq_true, decide_eq_true_eq]

/-- A privileged four-byte access passes both checks. -/
theorem checked_of_privWord {a : Access} (h : Claims.PrivWord a) (s : State)
    (run : Host.Outcome State Fault Refusal) : checked a.priv (wordFormat a) s run = run := by
  obtain ⟨hpriv, hword⟩ := h
  rw [hpriv, wordFormat_eq_none.mpr hword, checked_ok]

/-- A privileged four-byte write completes and changes the implemented interrupts of its register
whose bit is 1, and no other component of the state. -/
theorem writeBits_of_privWord {a : Access} (h : Claims.PrivWord a) (k : Nat) (f : Irq → Irq)
    (d : Word) (s : State) :
    ∃ t, writeBits k f a d s = .next t ∧ t.answer = some .done ∧ Claims.Frame s t ∧
      ∀ n, t.irq n =
        if n < s.cfg.numIrq ∧ n / 32 = k ∧ d.getLsbD (n % 32) = true
        then f (s.irq n) else s.irq n := by
  refine ⟨_, checked_of_privWord h s _, rfl, ⟨rfl, rfl, rfl, rfl⟩, fun n => ?_⟩
  simp only [State.respond_irq, State.irq_mapIrqs, State.implemented_iff, selected_iff, ite_and]

/-- A privileged four-byte read answers the shown bit of each interrupt of its register, 0 where
there is none, and changes the answer alone. -/
theorem readBits_of_privWord {a : Access} (h : Claims.PrivWord a) (k : Nat) (show1 : Irq → Bool)
    (s : State) :
    ∃ v, readBits k show1 a s = .next { s with answer := some (.data 4 v) } ∧
      ∀ i, i < 32 → v.getLsbD i =
        (decide (32 * k + i < s.cfg.numIrq) && show1 (s.irq (32 * k + i))) := by
  refine ⟨bitsValue k show1 s, checked_of_privWord h s _, fun i hi => ?_⟩
  rw [bitsValue_getLsbD, decide_eq_true hi, Bool.true_and, State.implemented]

/-! ## The operations of the enable registers -/

/-- ISERk: its address, and `EN[n] <- 1` as the change its write makes. -/
theorem iserWrites_spec {c : Access → Word → Instr} {k : Nat} (hc : (c, k) ∈ Claims.iserWrites)
    (a : Access) (d : Word) :
    (c a d).access = a ∧ (c a d).register.base = BitVec.ofNat 32 (0xE000E100 + 4 * k) ∧
      ∀ s, exec (c a d) s = writeBits k Irq.enabled a d s := by
  simp only [Claims.iserWrites, List.mem_cons, Prod.mk.injEq, List.not_mem_nil, or_false] at hc
  obtain ⟨rfl, rfl⟩ | ⟨rfl, rfl⟩ | ⟨rfl, rfl⟩ := hc <;> exact ⟨rfl, rfl, fun _ => rfl⟩

/-- ICERk: its address, and `EN[n] <- 0` as the change its write makes. -/
theorem icerWrites_spec {c : Access → Word → Instr} {k : Nat} (hc : (c, k) ∈ Claims.icerWrites)
    (a : Access) (d : Word) :
    (c a d).access = a ∧ (c a d).register.base = BitVec.ofNat 32 (0xE000E180 + 4 * k) ∧
      ∀ s, exec (c a d) s = writeBits k Irq.disabled a d s := by
  simp only [Claims.icerWrites, List.mem_cons, Prod.mk.injEq, List.not_mem_nil, or_false] at hc
  obtain ⟨rfl, rfl⟩ | ⟨rfl, rfl⟩ | ⟨rfl, rfl⟩ := hc <;> exact ⟨rfl, rfl, fun _ => rfl⟩

/-- Both enable registers show `EN`. -/
theorem exec_enableReads {c : Access → Instr} {k : Nat} (hc : (c, k) ∈ Claims.enableReads)
    (a : Access) (s : State) : exec (c a) s = readBits k Irq.en a s := by
  simp only [Claims.enableReads, List.mem_cons, Prod.mk.injEq, List.not_mem_nil, or_false] at hc
  obtain ⟨rfl, rfl⟩ | ⟨rfl, rfl⟩ | ⟨rfl, rfl⟩ | ⟨rfl, rfl⟩ | ⟨rfl, rfl⟩ | ⟨rfl, rfl⟩ := hc <;> rfl

/-- Settles O6: the write of ISERk is the one-bit write that sets `EN`. -/
theorem setEnableWrite : Obligations.SetEnableWrite := by
  intro c k hc a d s ha
  obtain ⟨haccess, hbase, hexec⟩ := iserWrites_spec hc a d
  rw [encode_addr_of_privWord haccess ha, hexec]
  exact ⟨hbase, writeBits_of_privWord ha k Irq.enabled d s⟩

/-- Settles O7: the write of ICERk is the one-bit write that clears `EN`. -/
theorem clearEnableWrite : Obligations.ClearEnableWrite := by
  intro c k hc a d s ha
  obtain ⟨haccess, hbase, hexec⟩ := icerWrites_spec hc a d
  rw [encode_addr_of_privWord haccess ha, hexec]
  exact ⟨hbase, writeBits_of_privWord ha k Irq.disabled d s⟩

/-- Settles O8: the value of either register is the one-bit read of `EN`. -/
theorem enableReads : Obligations.EnableReads := by
  intro c k hc a s ha
  rw [exec_enableReads hc]
  exact readBits_of_privWord ha k Irq.en s

end Sys2Proof.Machine
end

section
/-! PROOF. The pending registers (41_pending_registers.md rules R140 to R143): each operation is the
one-bit write or read whose address, update, value and frame stand with the enable registers. -/

namespace Sys2Proof.Machine

/-! ## The clear-pending write of one interrupt -/

/-- `PEND[n]` is cleared where the signal is not asserted (decision D17). -/
theorem Irq.unpended_eq_ite (q : Irq) :
    q.unpended = if q.line = false then { q with pend := false } else q := by
  unfold Irq.unpended
  cases q.line <;> rfl

/-! ## The operations of the pending registers -/

/-- ISPRk: its address, and `PEND[n] <- 1` as the change its write makes. -/
theorem isprWrites_spec {c : Access → Word → Instr} {k : Nat} (hc : (c, k) ∈ Claims.isprWrites)
    (a : Access) (d : Word) :
    (c a d).access = a ∧ (c a d).register.base = BitVec.ofNat 32 (0xE000E200 + 4 * k) ∧
      ∀ s, exec (c a d) s = writeBits k Irq.pended a d s := by
  simp only [Claims.isprWrites, List.mem_cons, Prod.mk.injEq, List.not_mem_nil, or_false] at hc
  obtain ⟨rfl, rfl⟩ | ⟨rfl, rfl⟩ | ⟨rfl, rfl⟩ := hc <;> exact ⟨rfl, rfl, fun _ => rfl⟩

/-- ICPRk: the clear-pending change of rule R142 is the one its write makes. -/
theorem exec_icprWrites {c : Access → Word → Instr} {k : Nat} (hc : (c, k) ∈ Claims.icprWrites)
    (a : Access) (d : Word) (s : State) : exec (c a d) s = writeBits k Irq.unpended a d s := by
  simp only [Claims.icprWrites, List.mem_cons, Prod.mk.injEq, List.not_mem_nil, or_false] at hc
  obtain ⟨rfl, rfl⟩ | ⟨rfl, rfl⟩ | ⟨rfl, rfl⟩ := hc <;> rfl

/-- Both pending registers show `PEND`. -/
theorem exec_pendingReads {c : Access → Instr} {k : Nat} (hc : (c, k) ∈ Claims.pendingReads)
    (a : Access) (s : State) : exec (c a) s = readBits k Irq.pend a s := by
  simp only [Claims.pendingReads, List.mem_cons, Prod.mk.injEq, List.not_mem_nil, or_false] at hc
  obtain ⟨rfl, rfl⟩ | ⟨rfl, rfl⟩ | ⟨rfl, rfl⟩ | ⟨rfl, rfl⟩ | ⟨rfl, rfl⟩ | ⟨rfl, rfl⟩ := hc <;> rfl

/-- Settles O9: the write of ISPRk is the one-bit write that sets `PEND`. -/
theorem setPendingWrite : Obligations.SetPendingWrite := by
  intro c k hc a d s ha
  obtain ⟨haccess, hbase, hexec⟩ := isprWrites_spec hc a d
  rw [encode_addr_of_privWord haccess ha, hexec]
  exact ⟨hbase, writeBits_of_privWord ha k Irq.pended d s⟩

/-- Settles O10: the write of ICPRk is the one-bit write that clears `PEND` of an interrupt whose
latched signal is low, so the bit and the latch decide together. -/
theorem clearPendingWrite : Obligations.ClearPendingWrite := by
  intro c k hc a d s ha
  obtain ⟨t, hnext, hanswer, hframe, hirq⟩ := writeBits_of_privWord ha k Irq.unpended d s
  rw [exec_icprWrites hc]
  refine ⟨t, hnext, hanswer, hframe, fun n => ?_⟩
  simp only [hirq, Irq.unpended_eq_ite, ite_and]

/-- Settles O11: the value of either register is the one-bit read of `PEND`. -/
theorem pendingReads : Obligations.PendingReads := by
  intro c k hc a s ha
  rw [exec_pendingReads hc]
  exact readBits_of_privWord ha k Irq.pend s

end Sys2Proof.Machine
end

section
/-! PROOF. The active registers (42_active_registers.md rules R150 and R151): the read is the one-bit
read whose value and frame stand with the enable registers; the write only answers. -/

namespace Sys2Proof.Machine

/-! ## The operations of the active registers -/

/-- IABRk shows `ACT`. -/
theorem exec_activeReads {c : Access → Instr} {k : Nat} (hc : (c, k) ∈ Claims.activeReads)
    (a : Access) (s : State) : exec (c a) s = readBits k Irq.act a s := by
  simp only [Claims.activeReads, List.mem_cons, Prod.mk.injEq, List.not_mem_nil, or_false] at hc
  obtain ⟨rfl, rfl⟩ | ⟨rfl, rfl⟩ | ⟨rfl, rfl⟩ := hc <;> rfl

/-- The write of any active register is the one ignored write (decision D11). -/
theorem exec_iabrWrites {c : Access → Word → Instr} (hc : c ∈ Claims.iabrWrites)
    (a : Access) (d : Word) (s : State) : exec (c a d) s = ignoredWrite a d s := by
  simp only [Claims.iabrWrites, List.mem_cons, List.not_mem_nil, or_false] at hc
  obtain rfl | rfl | rfl := hc <;> rfl

/-- A privileged four-byte ignored write completes and changes the answer alone. -/
theorem ignoredWrite_of_privWord {a : Access} (h : Claims.PrivWord a) (d : Word) (s : State) :
    ignoredWrite a d s = .next { s with answer := some .done } :=
  checked_of_privWord h s (.next (s.respond .done))

/-- Settles O12: the value of IABRk is the one-bit read of `ACT`. -/
theorem activeReads : Obligations.ActiveReads := by
  intro c k hc a s ha
  rw [exec_activeReads hc]
  exact readBits_of_privWord ha k Irq.act s

/-- Settles O13: the write of IABRk passes both checks and then only answers. -/
theorem activeWriteIgnored : Obligations.ActiveWriteIgnored := by
  intro c hc a d s ha
  rw [exec_iabrWrites hc]
  exact ignoredWrite_of_privWord ha d s

end Sys2Proof.Machine
end

section
/-! PROOF. The priority registers (43_priority_registers.md rules R155 and R156): the address, the
update, the value and the frame of a privileged aligned access of 1, 2 or 4 bytes, and that a read
gives back bits 7:4 of every byte written (10_state.md rule R34). -/

namespace Sys2Proof

/-- A register's address and a byte offset add up to the address that is accessed. -/
theorem encode_addr {i : Instr} {a : Access} {base : Nat} (hi : i.access = a)
    (hbase : i.register.base = BitVec.ofNat 32 base) :
    (encode i).addr = BitVec.ofNat 32 (base + a.lane.toNat) := by
  rw [encode, hi, hbase, BitVec.ofNat_add, BitVec.ofNat_toNat]

/-! ## The bytes of a word -/

/-- A word is its four bytes (20_memory.md rule R71). -/
theorem word_eq_of_bytes {v w : Word}
    (h : ∀ j, j < 4 → v.extractLsb' (8 * j) 8 = w.extractLsb' (8 * j) 8) : v = w := by
  apply BitVec.eq_of_getLsbD_eq
  intro i hi
  have hbit := congrArg (BitVec.getLsbD · (i % 8)) (h (i / 8) (by omega))
  simpa [Nat.mod_lt, Nat.div_add_mod] using hbit

/-- The mask `0xF0F0F0F0` keeps bits 7:4 of each byte. -/
theorem fieldMask_getLsbD :
    ∀ j < 4, ∀ i < 8, (0xF0F0F0F0 : Word).getLsbD (8 * j + i) = decide (4 ≤ i) := by
  decide

/-- Byte `j` of masked data cut to `8*size` bits: bits 7:4 of the byte and four 0 bits, and 0 above
the `size` bytes. -/
theorem maskedData_byte (d : Word) (size : Nat) {j : Nat} (hj : j < 4) :
    (BitVec.ofNat 32 ((d &&& 0xF0F0F0F0).toNat % 2 ^ (8 * size))).extractLsb' (8 * j) 8 =
      if j < size then d.extractLsb' (8 * j + 4) 4 ++ 0#4 else 0 := by
  apply BitVec.eq_of_getLsbD_eq
  intro i hi
  rw [BitVec.getLsbD_extractLsb', BitVec.getLsbD_ofNat, Nat.testBit_mod_two_pow,
    BitVec.testBit_toNat, BitVec.getLsbD_and, fieldMask_getLsbD j hj i hi]
  by_cases hs : j < size
  · rw [if_pos hs, BitVec.getLsbD_append]
    by_cases h4 : i < 4
    · simp [h4]
    · have hindex : 8 * j + 4 + (i - 4) = 8 * j + i := by omega
      simp [h4, Nat.le_of_not_lt h4, hi, hindex, show 8 * j + i < 32 by omega,
        show 8 * j + i < 8 * size by omega, show i - 4 < 4 by omega]
  · simp [hs, show ¬ 8 * j + i < 8 * size by omega]

end Sys2Proof

namespace Sys2Proof.Machine

/-! ## A privileged aligned access to a priority register -/

/-- A privileged aligned access of 1, 2 or 4 bytes passes both checks. -/
theorem checked_of_privLanes {a : Access} (h : Claims.PrivLanes a) (s : State)
    (run : Host.Outcome State Fault Refusal) : checked a.priv (lanesFormat a) s run = run := by
  obtain ⟨hpriv, hlanes⟩ := h
  rw [hpriv, lanesFormat_eq_none.mpr hlanes, checked_ok]

/-- The write completes and changes the level of the implemented interrupts whose fields are
accessed, and no other component of the state. -/
theorem writePriority_of_privLanes {a : Access} (h : Claims.PrivLanes a) (m : Nat) (d : Word)
    (s : State) :
    ∃ t, writePriority m a d s = .next t ∧ t.answer = some .done ∧ Claims.Frame s t ∧
      ∀ n, t.irq n =
        if n < s.cfg.numIrq ∧ firstField m a ≤ n ∧ n < firstField m a + a.size
        then (s.irq n).reprioritized (levelOf d (n - firstField m a)) else s.irq n := by
  refine ⟨_, checked_of_privLanes h s _, rfl, ⟨rfl, rfl, rfl, rfl⟩, fun n => ?_⟩
  simp only [State.respond_irq, State.irq_mapIrqs, State.implemented_iff, writeFields, ite_and]

/-- The read answers the level of each accessed interrupt in bits 7:4 of its byte, 0 where there is
none and above the access, and changes the answer alone. -/
theorem readPriority_of_privLanes {a : Access} (h : Claims.PrivLanes a) (m : Nat) (s : State) :
    ∃ v, readPriority m a s = .next { s with answer := some (.data a.size v) } ∧
      ∀ j, j < 4 → v.extractLsb' (8 * j) 8 =
        if j < a.size ∧ firstField m a + j < s.cfg.numIrq
        then (s.irq (firstField m a + j)).pri ++ 0#4 else 0 := by
  refine ⟨_, checked_of_privLanes h s _, fun j hj => ?_⟩
  simp only [fieldsValue_byte _ _ _ _ hj, laneValue, fieldValue, State.implemented_iff, ite_and]

/-! ## The operations of the priority registers -/

/-- IPRm: its address, and the write of rule R155. -/
theorem iprWrites_spec {cw : Access → Word → Instr} {cr : Access → Instr} {m : Nat}
    (hop : (cw, cr, m) ∈ Claims.iprOps) (a : Access) (d : Word) :
    (cw a d).access = a ∧ (cw a d).register.base = BitVec.ofNat 32 (0xE000E400 + 4 * m) ∧
      ∀ s, exec (cw a d) s = writePriority m a d s := by
  fin_cases hop <;> exact ⟨rfl, rfl, fun _ => rfl⟩

/-- The read of IPRm is the read of rule R156. -/
theorem exec_iprReads {cw : Access → Word → Instr} {cr : Access → Instr} {m : Nat}
    (hop : (cw, cr, m) ∈ Claims.iprOps) (a : Access) (s : State) :
    exec (cr a) s = readPriority m a s := by
  fin_cases hop <;> rfl

/-- Settles O14: the write of IPRm stores the levels of the accessed fields. -/
theorem priorityWrite : Obligations.PriorityWrite := by
  intro cw cr m hop a d s ha
  obtain ⟨haccess, hbase, hexec⟩ := iprWrites_spec hop a d
  rw [encode_addr haccess hbase, hexec]
  exact ⟨rfl, writePriority_of_privLanes ha m d s⟩

/-- Settles O15: the read of IPRm shows the levels of the accessed fields. -/
theorem priorityRead : Obligations.PriorityRead := by
  intro cw cr m hop a s ha
  rw [exec_iprReads hop]
  exact readPriority_of_privLanes ha m s

/-- Settles O16: byte by byte, the read of O15 shows the level that the write of O14 stored. -/
theorem priorityReadsBack : Obligations.PriorityReadsBack := by
  intro cw cr m hop a d s ha himpl
  obtain ⟨-, t, hwrite, -, ⟨hcfg, -⟩, hirq⟩ := priorityWrite cw cr m hop a d s ha
  obtain ⟨v, hread, hbyte⟩ := priorityRead cw cr m hop a t ha
  have hvalue : v = BitVec.ofNat 32 ((d &&& 0xF0F0F0F0).toNat % 2 ^ (8 * a.size)) := by
    refine word_eq_of_bytes fun j hj => ?_
    rw [hbyte j hj, maskedData_byte d a.size hj, hcfg]
    by_cases hs : j < a.size
    · have hn : 4 * m + a.lane.toNat + j < s.cfg.numIrq := by omega
      rw [if_pos ⟨hs, hn⟩, if_pos hs, hirq, if_pos ⟨hn, by omega, by omega⟩,
        Nat.add_sub_cancel_left]
    · rw [if_neg (fun hc => hs hc.1), if_neg hs]
  exact ⟨t, _, hwrite, hread, by rw [hvalue]⟩

end Sys2Proof.Machine
end

section
/-! PROOF. The software trigger (44_software_trigger.md rules R165 to R168): what a permitted access
to STIR passes and runs, that a write to it is a write to ISPR, and which input changes
USERSETMPEND. -/

namespace Sys2Proof.Machine

/-! ## A permitted access to STIR -/

/-- A four-byte access that STIR's privilege check lets pass passes both checks. -/
theorem checked_of_stirWord {a : Access} {s : State} (h : Claims.StirWord a s)
    (run : Host.Outcome State Fault Refusal) :
    checked (stirPermitted a s) (wordFormat a) s run = run := by
  obtain ⟨hperm, hword⟩ := h
  have hstir : stirPermitted a s = true := by rwa [stirPermitted, Bool.or_eq_true]
  rw [hstir, wordFormat_eq_none.mpr hword, checked_ok]

/-- Privilege lets a four-byte access to STIR pass, whatever USERSETMPEND is. -/
theorem stirWord_of_privWord {a : Access} (h : Claims.PrivWord a) (s : State) :
    Claims.StirWord a s :=
  h.imp_left .inl

/-- With bits 31:9 clear the data is the number `INTID`. -/
theorem intId_eq_toNat {d : Word} (h : d.toNat < 512) : intId d = d.toNat := by
  rw [intId, BitVec.extractLsb'_toNat, Nat.shiftRight_zero, Nat.mod_eq_of_lt h]

/-- A permitted write with bits 31:9 clear pends the interrupt it names and answers `Ok`. -/
theorem exec_wrStir_of_lt {a : Access} {d : Word} {s : State} (h : Claims.StirWord a s)
    (hd : d.toNat < 512) :
    exec (.wrStir a d) s = .next ((s.updateIrq d.toNat Irq.pended).respond .done) := by
  rw [exec, execWrStir, checked_of_stirWord h, stirReservedClear_iff.mpr hd, intId_eq_toNat hd]

/-- Settles O17: the update of one interrupt changes that interrupt, if implemented, and no other
component. -/
theorem softwareTrigger : Obligations.SoftwareTrigger := by
  intro a d s ha hd
  refine ⟨_, exec_wrStir_of_lt ha hd, rfl, ⟨rfl, rfl, rfl, rfl⟩, fun n => ?_⟩
  simp only [State.respond_irq, State.irq_updateIrq, State.implemented_iff, Irq.pended]

/-- Settles O18: the access passes its checks, and the data's reserved bits are not clear. -/
theorem softwareTriggerReservedRefused : Obligations.SoftwareTriggerReservedRefused := by
  intro a d s ha hd
  have hreserved : stirReservedClear d = false := by
    rw [Bool.eq_false_iff, Ne, stirReservedClear_iff]
    exact Nat.not_lt.mpr hd
  rw [exec, execWrStir, checked_of_stirWord ha, hreserved]

/-- Settles O19: the access passes its checks, and the read draws one free value. -/
theorem softwareTriggerRead : Obligations.SoftwareTriggerRead := by
  intro a s ha
  exact checked_of_stirWord ha (.next (s.drawn.respond (.data 4 s.freeValue)))

/-! ## An access to STIR that is not permitted -/

/-- Settles O20: neither operation passes its privilege check, the first of its checks. -/
theorem softwareTriggerDenied : Obligations.SoftwareTriggerDenied := by
  intro a d s hpriv huser
  have hdenied : ∀ i : Instr, i.access = a → permitted i s = false := by
    intro i hi
    simp [Bool.eq_false_iff, permitted_iff, hi, hpriv, huser]
  exact ⟨exec_of_not_permitted (hdenied (.wrStir a d) rfl),
    exec_of_not_permitted (hdenied (.rdStir a) rfl)⟩

/-! ## STIR and ISPR -/

/-- Bit `n MOD 32` alone, written to register `n DIV 32`, selects interrupt `n` alone. -/
theorem selected_two_pow_iff {n m : Nat} :
    selected (n / 32) (BitVec.ofNat 32 (2 ^ (n % 32))) m = true ↔ m = n := by
  have hbit : m % 32 < 32 := Nat.mod_lt m (by decide)
  simp only [selected_iff, BitVec.getLsbD_ofNat, Nat.testBit_two_pow, hbit, decide_true,
    Bool.true_and, decide_eq_true_eq]
  omega

/-- A privileged write of bit `n MOD 32` to a register with one bit for each interrupt updates
interrupt `n` alone. -/
theorem writeBits_two_pow {a : Access} (h : Claims.PrivWord a) (n : Nat) (f : Irq → Irq)
    (s : State) :
    writeBits (n / 32) f a (BitVec.ofNat 32 (2 ^ (n % 32))) s =
      .next ((s.updateIrq n f).respond .done) := by
  rw [writeBits, checked_of_privWord h]
  simp only [selected_two_pow_iff, State.updateIrq]

/-- Settles O21: both writes are the update of interrupt `n` alone that pends it. -/
theorem softwareTriggerIsSetPending : Obligations.SoftwareTriggerIsSetPending := by
  rintro c _ hc a n s ha hn rfl
  have himpl : s.implemented n = true := State.implemented_iff.mpr hn
  have hlt : n < 81 := State.lt_of_implemented himpl
  have hnat : (BitVec.ofNat 32 n).toNat = n := by
    rw [BitVec.toNat_ofNat, Nat.mod_eq_of_lt (by omega)]
  obtain ⟨-, -, hexec⟩ := isprWrites_spec hc a (BitVec.ofNat 32 (2 ^ (n % 32)))
  refine ⟨(s.updateIrq n Irq.pended).respond .done, ?_, ?_, ?_⟩
  · rw [exec_wrStir_of_lt (stirWord_of_privWord ha s) (by omega), hnat]
  · rw [hexec, writeBits_two_pow ha]
  · rw [State.respond_irq, State.irq_updateIrq, if_pos ⟨himpl, rfl⟩, Irq.pended]

/-! ## Which inputs change USERSETMPEND -/

/-- An input is the privileged write of USERSETMPEND, or leaves it. -/
theorem deliver_userSetMPend {e : Input} {s t : State} (h : deliver e s = .next t) :
    (∃ v, e = .setUserSetMPend true v) ∨ t.env.userSetMPend = s.env.userSetMPend := by
  cases e with
  | bus x =>
    obtain ⟨i, -, hx⟩ := transact_next h
    exact .inr (congrArg Env.userSetMPend (exec_touched hx).env)
  | fetch addr => cases h
  | entry n =>
    obtain ⟨-, rfl⟩ := enter_next h
    exact .inr rfl
  | ret n level =>
    obtain ⟨-, -, rfl⟩ := leave_next h
    exact .inr rfl
  | setUserSetMPend priv v =>
    cases priv with
    | true => exact .inl ⟨v, rfl⟩
    | false => cases h; exact .inr rfl
  | sample _ | reset | setPriGroup _ | setAcceptBelow _ | cpsid | cpsie | nmi _ =>
    cases h
    exact .inr rfl

/-- Settles O40: an input that changes the bit is not one that leaves it. -/
theorem onlyPrivilegedOpensTrigger : Obligations.OnlyPrivilegedOpensTrigger := by
  intro e s t h hne
  exact (deliver_userSetMPend h).resolve_right hne

end Sys2Proof.Machine
end

section
/-! PROOF. The CMSIS functions (45_cmsis_functions.md rules R175 to R183, R186, R187): first the
register and the operation that a function's transaction decodes to, then the obligations, read off
what those operations do. -/

namespace Sys2Proof

/-! ## The transaction of a register's operation -/

theorem encode_write (r : Register) (a : Access) (d : Word) :
    encode (Instr.write r a d) = ⟨.write d, r.base + a.lane.setWidth 32, a.size, a.priv⟩ := by
  simp [encode, Instr.writeData, Instr.register, Instr.access]

theorem encode_read (r : Register) (a : Access) :
    encode (Instr.read r a) = ⟨.read, r.base + a.lane.setWidth 32, a.size, a.priv⟩ := by
  simp [encode, Instr.writeData, Instr.register, Instr.access]

end Sys2Proof

namespace Sys2Proof.Machine

/-- A transaction that carries an operation runs it. -/
theorem deliver_encode {i : Instr} (h : i.dataFits = true) (s : State) :
    deliver (.bus (encode i)) s = exec i s :=
  transact_of_decode (decodeOfEncode i h) s

theorem deliver_write {r : Register} {a : Access} {d : Word}
    (hd : d.toNat < 2 ^ (8 * min a.size 4)) (s : State) :
    deliver (.bus ⟨.write d, r.base + a.lane.setWidth 32, a.size, a.priv⟩) s =
      exec (Instr.write r a d) s := by
  rw [← encode_write, deliver_encode]
  simpa [Instr.dataFits, Instr.writeData, Instr.access] using hd

theorem deliver_read (r : Register) (a : Access) (s : State) :
    deliver (.bus ⟨.read, r.base + a.lane.setWidth 32, a.size, a.priv⟩) s =
      exec (Instr.read r a) s := by
  rw [← encode_read, deliver_encode]
  simp [Instr.dataFits, Instr.writeData]

/-! ## The register that holds an interrupt's bit (rule R175) -/

/-- Register `k` of the three at `group` lies at `group + 4*k`, and its operation is the one `ops`
lists under `k`. -/
def InGroup {α : Type} (group : Nat) (op : Register → α) (ops : List (α × Nat)) : Prop :=
  ∀ k : Fin 3, ∃ r : Register, r.base = BitVec.ofNat 32 (group + 4 * k.val) ∧ (op r, k.val) ∈ ops

/-- Three registers, four bytes apart, that head the list. -/
theorem inGroup_of_take {α : Type} {group : Nat} {op : Register → α} {ops : List (α × Nat)}
    (r : Fin 3 → Register) (hbase : ∀ k, (r k).base = BitVec.ofNat 32 (group + 4 * k.val))
    (hops : ops.take 3 = [(op (r 0), 0), (op (r 1), 1), (op (r 2), 2)]) :
    InGroup group op ops := by
  intro k
  refine ⟨r k, hbase k, List.mem_of_mem_take (i := 3) ?_⟩
  rw [hops]
  fin_cases k <;> simp

theorem iserWrites_inGroup : InGroup 0xE000E100 Instr.write Claims.iserWrites :=
  inGroup_of_take ![.iser0, .iser1, .iser2] (by decide) rfl

theorem icerWrites_inGroup : InGroup 0xE000E180 Instr.write Claims.icerWrites :=
  inGroup_of_take ![.icer0, .icer1, .icer2] (by decide) rfl

theorem isprWrites_inGroup : InGroup 0xE000E200 Instr.write Claims.isprWrites :=
  inGroup_of_take ![.ispr0, .ispr1, .ispr2] (by decide) rfl

theorem icprWrites_inGroup : InGroup 0xE000E280 Instr.write Claims.icprWrites :=
  inGroup_of_take ![.icpr0, .icpr1, .icpr2] (by decide) rfl

theorem isprReads_inGroup : InGroup 0xE000E200 Instr.read Claims.pendingReads :=
  inGroup_of_take ![.ispr0, .ispr1, .ispr2] (by decide) rfl

theorem iabrReads_inGroup : InGroup 0xE000E300 Instr.read Claims.activeReads :=
  inGroup_of_take ![.iabr0, .iabr1, .iabr2] (by decide) rfl

theorem lt_81_of_lt_numIrq {s : State} {n : Nat} (hn : n < s.cfg.numIrq) : n < 81 :=
  State.lt_of_implemented (State.implemented_iff.mpr hn)

/-- The access of a function on a register with one bit for each interrupt. -/
def cmsisWord : Access := ⟨true, 4, 0⟩

theorem privWord_cmsisWord : Claims.PrivWord cmsisWord := ⟨rfl, rfl, rfl⟩

/-- The register that the group's transaction for an implemented interrupt reaches, with its
operation. -/
theorem InGroup.exists_bitRegister {α : Type} {group : Nat} {op : Register → α}
    {ops : List (α × Nat)} (h : InGroup group op ops) {s : State} {n : Nat}
    (hn : n < s.cfg.numIrq) :
    ∃ r : Register, bitRegister group n = r.base + cmsisWord.lane.setWidth 32 ∧
      (op r, n / 32) ∈ ops := by
  have hk : n / 32 < 3 := by have := lt_81_of_lt_numIrq hn; omega
  obtain ⟨r, hbase, hop⟩ := h ⟨n / 32, hk⟩
  exact ⟨r, by simp [bitRegister, hbase, cmsisWord], hop⟩

/-- The write of an interrupt's mask to its register makes the register's change to that interrupt
alone. -/
theorem deliver_maskWrite {group : Nat} {ops : List ((Access → Word → Instr) × Nat)}
    {f : Irq → Irq} (hgroup : InGroup group Instr.write ops)
    (hexec : ∀ {c k}, (c, k) ∈ ops → ∀ a d s, exec (c a d) s = writeBits k f a d s)
    {s : State} {n : Nat} (hn : n < s.cfg.numIrq) :
    ∃ t, deliver (.bus ⟨.write (irqMask n), bitRegister group n, 4, true⟩) s = .next t ∧
      t.irq n = f (s.irq n) ∧ ∀ m, m ≠ n → t.irq m = s.irq m := by
  obtain ⟨r, haddr, hop⟩ := hgroup.exists_bitRegister hn
  refine ⟨(s.updateIrq n f).respond .done, ?_, ?_, fun m hm => ?_⟩
  · rw [haddr, ← writeBits_two_pow privWord_cmsisWord, ← hexec hop]
    exact deliver_write (a := cmsisWord) (irqMask n).isLt s
  · simp [State.implemented_iff.mpr hn]
  · simp [hm]

/-- The read of an interrupt's register changes no interrupt, and the result is non-zero exactly
when the interrupt's bit is shown. -/
theorem deliver_bitRead {group : Nat} {ops : List ((Access → Instr) × Nat)} {show1 : Irq → Bool}
    (hgroup : InGroup group Instr.read ops)
    (hexec : ∀ {c k}, (c, k) ∈ ops → ∀ a s, exec (c a) s = readBits k show1 a s)
    {s : State} {n : Nat} (hn : n < s.cfg.numIrq) :
    ∃ t, deliver (.bus ⟨.read, bitRegister group n, 4, true⟩) s = .next t ∧ t.irqs = s.irqs ∧
      nonZeroResult n t.answer = show1 (s.irq n) := by
  obtain ⟨r, haddr, hop⟩ := hgroup.exists_bitRegister hn
  obtain ⟨v, hread, hbits⟩ := readBits_of_privWord privWord_cmsisWord (n / 32) show1 s
  have hdeliver : deliver (.bus ⟨.read, bitRegister group n, 4, true⟩) s =
      readBits (n / 32) show1 cmsisWord s := by
    rw [haddr, ← hexec hop]
    exact deliver_read r cmsisWord s
  have hbit := hbits (n % 32) (Nat.mod_lt n (by decide))
  rw [Nat.div_add_mod, decide_eq_true hn, Bool.true_and] at hbit
  exact ⟨_, hdeliver.trans hread, rfl, hbit⟩

/-! ## Enable, pending and active -/

theorem exec_iserWrites {c : Access → Word → Instr} {k : Nat} (hc : (c, k) ∈ Claims.iserWrites)
    (a : Access) (d : Word) (s : State) : exec (c a d) s = writeBits k Irq.enabled a d s := by
  obtain ⟨-, -, hexec⟩ := iserWrites_spec hc a d
  exact hexec s

theorem exec_icerWrites {c : Access → Word → Instr} {k : Nat} (hc : (c, k) ∈ Claims.icerWrites)
    (a : Access) (d : Word) (s : State) : exec (c a d) s = writeBits k Irq.disabled a d s := by
  obtain ⟨-, -, hexec⟩ := icerWrites_spec hc a d
  exact hexec s

theorem exec_isprWrites {c : Access → Word → Instr} {k : Nat} (hc : (c, k) ∈ Claims.isprWrites)
    (a : Access) (d : Word) (s : State) : exec (c a d) s = writeBits k Irq.pended a d s := by
  obtain ⟨-, -, hexec⟩ := isprWrites_spec hc a d
  exact hexec s

/-- Settles O57: the mask written to ISERk or ICERk sets or clears `EN` of its interrupt alone. -/
theorem cmsisEnableDisable : Obligations.CmsisEnableDisable := by
  intro s n hn
  exact ⟨deliver_maskWrite iserWrites_inGroup exec_iserWrites hn,
    deliver_maskWrite icerWrites_inGroup exec_icerWrites hn⟩

/-- Settles O58: the mask written to ISPRk or ICPRk makes the change of rule R140 or R142 to its
interrupt alone. -/
theorem cmsisPending : Obligations.CmsisPending := by
  intro s n hn
  refine ⟨deliver_maskWrite isprWrites_inGroup exec_isprWrites hn, ?_⟩
  rw [← Irq.unpended_eq]
  exact deliver_maskWrite icprWrites_inGroup exec_icprWrites hn

/-- Settles O59: the results are the interrupt's bit in the read of ISPRk, respectively IABRk. -/
theorem cmsisStatusReads : Obligations.CmsisStatusReads := by
  intro s n hn
  exact ⟨deliver_bitRead isprReads_inGroup exec_pendingReads hn,
    deliver_bitRead iabrReads_inGroup exec_activeReads hn⟩

/-! ## The byte of a priority field (43_priority_registers.md rule R158) -/

/-- The priority registers are 21 in a row of rule R101's table. -/
theorem exists_iprRegister {m : Nat} (hm : m < 21) :
    ∃ r : Register, (Instr.write r, Instr.read r, m) ∈ Claims.iprOps := by
  have hentry : ∃ r : Register, Claims.iprOps[m]? = some (Instr.write r, Instr.read r, m) := by
    refine ⟨registers[15 + m]'(by simp [registers]; omega), ?_⟩
    interval_cases m <;> rfl
  obtain ⟨r, hr⟩ := hentry
  exact ⟨r, List.mem_of_getElem? hr⟩

/-- The access of a function on the field `IP[n]`: one byte, at offset `n MOD 4` of its register. -/
def cmsisByte (n : Nat) : Access := ⟨true, 1, BitVec.ofNat 2 n⟩

theorem privLanes_cmsisByte (n : Nat) : Claims.PrivLanes (cmsisByte n) :=
  ⟨rfl, .inl rfl, Nat.mod_one _⟩

theorem cmsisByte_field (n : Nat) : 4 * (n / 4) + (cmsisByte n).lane.toNat = n := by
  rw [cmsisByte, BitVec.toNat_ofNat, Nat.div_add_mod]

/-- The register that the byte `IP[n]` lies in, with its operations: its number and the offset of
the byte add up to `n`. -/
theorem exists_priorityRegister {s : State} {n : Nat} (hn : n < s.cfg.numIrq) :
    ∃ r : Register, priorityByte n = r.base + (cmsisByte n).lane.setWidth 32 ∧
      (Instr.write r, Instr.read r, n / 4) ∈ Claims.iprOps := by
  obtain ⟨r, hop⟩ := exists_iprRegister (m := n / 4) (by have := lt_81_of_lt_numIrq hn; omega)
  obtain ⟨haddr, -⟩ := priorityWrite _ _ _ hop (cmsisByte n) 0 s (privLanes_cmsisByte n)
  rw [encode_write, Nat.add_assoc, cmsisByte_field] at haddr
  exact ⟨r, haddr.symm, hop⟩

/-! ## The level in the byte (decision D26) -/

theorem priorityData_lt (p : Word) : ((p <<< 4) &&& 0xFF).toNat < 2 ^ 8 := by
  rw [BitVec.toNat_and]
  exact Nat.and_lt_two_pow _ (by decide)

/-- Bits 7:4 of the byte that is written are the argument modulo 16. -/
theorem priorityData_level (p : Word) :
    ((p <<< 4) &&& 0xFF).extractLsb' 4 4 = p.setWidth 4 := by
  apply BitVec.eq_of_getLsbD_eq
  intro i hi
  interval_cases i <;> simp

/-- The word whose lowest byte is a field and whose other bytes are 0. -/
theorem fieldWord_byte (b : Byte) {j : Nat} (hj : j < 4) :
    (b.setWidth 32).extractLsb' (8 * j) 8 = if j < 1 then b else 0 := by
  apply BitVec.eq_of_getLsbD_eq
  intro i hi
  by_cases h1 : j < 1
  · obtain rfl : j = 0 := by omega
    simp [hi, show i < 32 by omega]
  · rw [if_neg h1, BitVec.getLsbD_extractLsb', BitVec.getLsbD_setWidth,
      b.getLsbD_of_ge (8 * j + i) (by omega), Bool.and_false, Bool.and_false, BitVec.ofNat_eq_ofNat,
      BitVec.getLsbD_zero]

theorem fieldWord_shift : ∀ l : Level, (l ++ 0#4).setWidth 32 >>> 4 = l.setWidth 32 := by
  decide

/-- `NVIC_SetPriority` stores the argument modulo 16 in the level of its interrupt alone. -/
theorem deliver_nvicSetPriority {s : State} {n : Nat} (hn : n < s.cfg.numIrq) (p : Word) :
    ∃ t, deliver (nvicSetPriority n p) s = .next t ∧
      t.irq n = { s.irq n with pri := p.setWidth 4 } ∧ ∀ m, m ≠ n → t.irq m = s.irq m := by
  obtain ⟨r, haddr, hop⟩ := exists_priorityRegister hn
  obtain ⟨-, t, hwrite, -, -, hirq⟩ :=
    priorityWrite _ _ _ hop (cmsisByte n) ((p <<< 4) &&& 0xFF) s (privLanes_cmsisByte n)
  rw [cmsisByte_field] at hirq
  refine ⟨t, ?_, ?_, fun m hm => ?_⟩
  · rw [nvicSetPriority, haddr, ← hwrite]
    exact deliver_write (a := cmsisByte n) (priorityData_lt p) s
  · rw [hirq, if_pos ⟨hn, le_refl n, Nat.lt_succ_self n⟩, Nat.sub_self, ← priorityData_level]
  · rw [hirq, if_neg]
    rintro ⟨-, hle, hlt⟩
    exact hm (Nat.le_antisymm (Nat.lt_succ_iff.mp hlt) hle)

/-- `NVIC_GetPriority` reads the level of its interrupt and changes no interrupt. -/
theorem deliver_nvicGetPriority {s : State} {n : Nat} (hn : n < s.cfg.numIrq) :
    ∃ t, deliver (nvicGetPriority n) s = .next t ∧ t.irqs = s.irqs ∧
      priorityResult t.answer = (s.irq n).pri.setWidth 32 := by
  obtain ⟨r, haddr, hop⟩ := exists_priorityRegister hn
  obtain ⟨v, hread, hbyte⟩ := priorityRead _ _ _ hop (cmsisByte n) s (privLanes_cmsisByte n)
  rw [cmsisByte_field] at hbyte
  have hvalue : v = ((s.irq n).pri ++ 0#4).setWidth 32 := by
    refine word_eq_of_bytes fun j hj => ?_
    rw [hbyte j hj, fieldWord_byte _ hj]
    by_cases h1 : j < 1
    · obtain rfl : j = 0 := by omega
      exact if_pos ⟨h1, hn⟩
    · rw [if_neg (fun hc => h1 hc.1), if_neg h1]
  have hdeliver : deliver (nvicGetPriority n) s = exec (Instr.read r (cmsisByte n)) s := by
    rw [nvicGetPriority, haddr]
    exact deliver_read r (cmsisByte n) s
  refine ⟨_, hdeliver.trans hread, rfl, ?_⟩
  rw [hvalue]
  exact fieldWord_shift (s.irq n).pri

/-- Settles O60: the write and the read of the byte `IP[n]` are those of rules R155 and R156, and
the level is bits 7:4 of the byte (decision D26). -/
theorem cmsisPriority : Obligations.CmsisPriority := by
  intro s n p hn
  exact ⟨deliver_nvicSetPriority hn p, deliver_nvicGetPriority hn⟩

/-! ## Masking by `CPSID I` -/

/-- While interrupts are disabled none may be entered. -/
theorem mayEnter_of_intDisabled {s : State} (h : s.env.intDisabled = true) (n : Nat) :
    s.mayEnter n = false := by
  simp [State.mayEnter, State.coreAccepts, h]

/-- Settles O39: `CPSID I` and `CPSIE I` set one bit of the environment, which the request does not
read and every entry needs clear. -/
theorem maskedProcessorEntersNothing : Obligations.MaskedProcessorEntersNothing := by
  intro s
  exact ⟨_, rfl, rfl, mayEnter_of_intDisabled rfl, request_congr rfl rfl, _, rfl, rfl⟩

end Sys2Proof.Machine
end

section
/-! PROOF. Selection (60_exceptions.md rules R204 to R207, R213): the candidates, the request among
them, and what the entry of the requested interrupt asks. -/

namespace Sys2Proof.Machine

/-! ## The request -/

theorem State.candidate_iff {s : State} {n : Nat} :
    s.candidate n = true ↔
      n < s.cfg.numIrq ∧ (s.irq n).en = true ∧ (s.irq n).pend = true := by
  rw [State.candidate, Bool.and_eq_true, Bool.and_eq_true, State.implemented_iff, and_assoc]

theorem State.lt_of_candidate {s : State} {n : Nat} (h : s.candidate n = true) : n < 81 :=
  lt_81_of_lt_numIrq (State.candidate_iff.mp h).1

/-- Nothing is requested exactly when there is no candidate at all. -/
theorem request_eq_none {s : State} : s.request = none ↔ ∀ n, s.candidate n = false := by
  rw [State.request, bestBelow_eq_none]
  refine ⟨fun h n => ?_, fun h n _ => h n⟩
  by_contra hc
  have hn : s.candidate n = true := by simpa using hc
  exact hc (h n (State.lt_of_candidate hn))

/-- The request is a candidate, of least level and then of least number. -/
theorem request_some {s : State} {n : Nat} (h : s.request = some n) :
    s.candidate n = true ∧ ∀ m, s.candidate m = true →
      (s.irq n).pri < (s.irq m).pri ∨ (s.irq n).pri = (s.irq m).pri ∧ n ≤ m := by
  obtain ⟨-, hcand, hleast⟩ := bestBelow_some h
  exact ⟨hcand, fun m hm => hleast m (State.lt_of_candidate hm) hm⟩

/-- A candidate that no other one precedes is the request: two such candidates are one. -/
theorem request_of_least {s : State} {n : Nat} (hn : s.candidate n = true)
    (hleast : ∀ m, s.candidate m = true →
      (s.irq n).pri < (s.irq m).pri ∨ (s.irq n).pri = (s.irq m).pri ∧ n ≤ m) :
    s.request = some n := by
  cases hr : s.request with
  | none => simp [request_eq_none.mp hr n] at hn
  | some m =>
    obtain ⟨hm, hmleast⟩ := request_some hr
    have hnm := hleast m hm
    have hmn := hmleast n hn
    simp only [BitVec.lt_def, ← BitVec.toNat_inj] at hnm hmn
    rw [show m = n by omega]

/-- Settles O43: the order of level, then number, has one least candidate. -/
theorem requestIsLeast : Obligations.RequestIsLeast := by
  intro s n
  simp only [← State.candidate_iff, ← BitVec.lt_def]
  constructor
  · intro h
    obtain ⟨hcand, hleast⟩ := request_some h
    exact ⟨hcand, fun m hm hen hpend => hleast m (State.candidate_iff.mpr ⟨hm, hen, hpend⟩)⟩
  · rintro ⟨hcand, hleast⟩
    refine request_of_least hcand fun m hm => ?_
    obtain ⟨hlt, hen, hpend⟩ := State.candidate_iff.mp hm
    exact hleast m hlt hen hpend

/-! ## Entry of the request -/

/-- Only a candidate may be entered. -/
theorem candidate_of_mayEnter {s : State} {n : Nat} (h : s.mayEnter n = true) :
    s.candidate n = true :=
  (request_some (mayEnter_iff.mp h).1).1

theorem implemented_of_mayEnter {s : State} {n : Nat} (h : s.mayEnter n = true) :
    s.implemented n = true :=
  State.implemented_iff.mpr (State.candidate_iff.mp (candidate_of_mayEnter h)).1

theorem coreAccepts_iff {s : State} {g : Level} :
    s.coreAccepts g = true ↔ s.env.intDisabled = false ∧ g.toNat < s.env.acceptBelow.val := by
  simp [State.coreAccepts]

/-- Settles O44: the preemption condition and the processor's masking, said as numbers. -/
theorem mayEnterCondition : Obligations.MayEnterCondition := by
  intro s n
  simp only [mayEnter_iff, coreAccepts_iff, State.implemented_iff, BitVec.lt_def]

/-- Settles O45: an active interrupt would have to precede itself. -/
theorem mayEnterIsNotActive : Obligations.MayEnterIsNotActive := by
  intro s n h
  obtain ⟨hlt, hen, hpend⟩ := State.candidate_iff.mp (candidate_of_mayEnter h)
  obtain ⟨-, hpreempts, -⟩ := mayEnter_iff.mp h
  refine ⟨?_, hpend, hen⟩
  by_contra hact
  exact BitVec.lt_irrefl _ (hpreempts n (State.implemented_iff.mpr hlt) (by simpa using hact))

/-! ## Priority grouping (rule R206, decision D15) -/

/-- Without subpriority bits the whole level is the group priority. -/
theorem grouping_of_subBits_zero {g : BitVec 3} (h : subBits g = 0) (p : Level) :
    groupOf g p = p ∧ subOf g p = 0 := by
  simp [groupOf, subOf, h]

/-- Settles O46: PRIGROUP up to 3 leaves no subpriority bits, and each further step one more. -/
theorem priorityGrouping : Obligations.PriorityGrouping := by
  intro p
  refine ⟨fun g hg => grouping_of_subBits_zero (Nat.sub_eq_zero_of_le hg) p,
    rfl, rfl, rfl, rfl, rfl, rfl, ?_, ?_⟩
  · exact BitVec.ushiftRight_eq_zero (le_refl 4)
  · exact BitVec.and_allOnes

end Sys2Proof.Machine
end

section
/-! PROOF. The events (60_exceptions.md rules R202, R208, R209): what a sample, an entry and a
return make of every interrupt, when the last two are not enabled, and that an interrupt's enable
bit gates its entry but not its pending state (rule R204). -/

namespace Sys2Proof.Machine

/-! ## The change of one interrupt -/

theorem Irq.sampled_pend (new : Bool) (q : Irq) :
    (q.sampled new).pend = (q.pend || (new && !q.line) || (new && !q.act)) := rfl
@[simp] theorem Irq.sampled_line (new : Bool) (q : Irq) : (q.sampled new).line = new := rfl
@[simp] theorem Irq.sampled_pri (new : Bool) (q : Irq) : (q.sampled new).pri = q.pri := rfl

@[simp] theorem Irq.entered_pri (q : Irq) : q.entered.pri = q.pri := rfl

@[simp] theorem Irq.returned_pend (level : Bool) (q : Irq) :
    (q.returned level).pend = (q.pend || level) := rfl
@[simp] theorem Irq.returned_pri (level : Bool) (q : Irq) : (q.returned level).pri = q.pri := rfl
@[simp] theorem Irq.returned_line (level : Bool) (q : Irq) : (q.returned level).line = level := rfl

@[simp] theorem State.sampleSignals_implemented (s : State) (x : Signals) (n : Nat) :
    (s.sampleSignals x).implemented n = s.implemented n := rfl
@[simp] theorem State.enterIsr_implemented (s : State) (n m : Nat) :
    (s.enterIsr n).implemented m = s.implemented m := rfl

/-! ## Samples -/

/-- Settles O32: a sample is `Irq.sampled` of every implemented interrupt. -/
theorem sampleEvent : Obligations.SampleEvent := by
  intro x s rest hs
  rw [step_of_inputs hs]
  refine ⟨_, rfl, ⟨⟨rfl, rfl, rfl, rfl⟩, rfl⟩, fun n => ?_⟩
  simp only [State.irq_sampleSignals, State.with_inputs_irq, State.implemented_iff]
  rfl

/-- A HIGH signal that rises, or whose interrupt is not active, makes it pending. -/
theorem Irq.sampled_true_pend {q : Irq} (h : q.act = false ∨ q.line = false) :
    (q.sampled true).pend = true := by
  obtain h | h := h <;> simp [Irq.sampled_pend, h]

/-! ## Entries -/

theorem enter_of_mayEnter {s : State} {n : Nat} (h : s.mayEnter n = true) :
    enter n s = .next (s.enterIsr n) := by
  unfold enter
  rw [h]

theorem enter_of_not_mayEnter {s : State} {n : Nat} (h : s.mayEnter n = false) :
    enter n s = .fault (.entryNotEnabled n) := by
  unfold enter
  rw [h]

/-- Settles O33: what may be entered is implemented, and the entry changes it alone. -/
theorem entryEvent : Obligations.EntryEvent := by
  intro n s rest hs hmay
  rw [step_of_inputs hs]
  refine ⟨_, enter_of_mayEnter (s := { s with inputs := rest }) (by simpa using hmay),
    ⟨⟨rfl, rfl, rfl, rfl⟩, rfl⟩, ?_, fun m hm => ?_⟩
  · simp [implemented_of_mayEnter hmay, Irq.entered]
  · simp [hm]

/-- Settles O34: the script's rest is no part of `may_enter`. -/
theorem entryNeedsMayEnter : Obligations.EntryNeedsMayEnter := by
  intro n s rest hs hmay
  rw [step_of_inputs hs]
  exact enter_of_not_mayEnter (s := { s with inputs := rest }) (by simpa using hmay)

/-! ## Returns -/

theorem leave_of_active {s : State} {n : Nat} (hi : s.implemented n = true)
    (ha : (s.irq n).act = true) (level : Bool) :
    leave n level s = .next (s.returnFromIsr n level) := by
  simp [leave, hi, ha]

theorem leave_of_not_active {s : State} {n : Nat} (ha : (s.irq n).act = false) (level : Bool) :
    leave n level s = .fault (.returnNotEnabled n) := by
  simp [leave, ha]

/-- Settles O35: the return changes the active interrupt alone. -/
theorem returnEvent : Obligations.ReturnEvent := by
  intro n level s rest hs hn hact
  have himpl : s.implemented n = true := State.implemented_iff.mpr hn
  rw [step_of_inputs hs]
  refine ⟨_, leave_of_active (s := { s with inputs := rest }) himpl hact level,
    ⟨⟨rfl, rfl, rfl, rfl⟩, rfl⟩, ?_, fun m hm => ?_⟩
  · simp [himpl, Irq.returned]
  · simp [hm]

/-- Settles O36: without `ACT[n]` the return is not enabled. -/
theorem returnNeedsActive : Obligations.ReturnNeedsActive := by
  intro n level s rest hs hact
  rw [step_of_inputs hs]
  exact leave_of_not_active (s := { s with inputs := rest }) hact level

/-! ## Enable gating -/

/-- A disabled interrupt may not be entered. -/
theorem mayEnter_of_disabled {s : State} {n : Nat} (h : (s.irq n).en = false) :
    s.mayEnter n = false := by
  rw [Bool.eq_false_iff]
  intro hmay
  obtain ⟨-, -, hen⟩ := mayEnterIsNotActive s n hmay
  simp [h] at hen

/-- Settles O42: the request is a candidate; the entry needs the enable bit, the sample does not. -/
theorem requestIsEnabledAndPending : Obligations.RequestIsEnabledAndPending := by
  intro s
  refine ⟨fun n h => State.candidate_iff.mp (request_some h).1, ?_,
    fun n hen => enter_of_not_mayEnter (mayEnter_of_disabled hen),
    fun n x hn hen hrises hx => ⟨_, rfl, ?_⟩⟩
  · simp only [request_eq_none, Bool.eq_false_iff, ne_eq, State.candidate_iff, not_and]
  · rw [State.irq_sampleSignals, if_pos (State.implemented_iff.mpr hn), hx]
    exact ⟨Irq.sampled_true_pend hrises, hen⟩

end Sys2Proof.Machine
end

section
/-! PROOF. The invariants of the interrupts and what ends the pending state (60_exceptions.md rules
R203, R207, R212): first what an input can make of one interrupt; then rule R212, which every single
change of an interrupt keeps; then what clears `PEND`; then the group priorities of the active
interrupts. -/

namespace Sys2Proof.Machine

/-! ## What an input makes of one interrupt -/

/-- An input leaves interrupt `n`, or is a transaction that may touch it, or makes the change of its
event to it. -/
theorem deliver_irq {e : Input} {s t : State} (h : deliver e s = .next t) (n : Nat) :
    t.irq n = s.irq n ∨
    (∃ x i, e = .bus x ∧ decode x = .ok i ∧ exec i s = .next t) ∨
    (∃ b, t.irq n = (s.irq n).sampled b) ∨
    (e = .entry n ∧ t.irq n = (s.irq n).entered) ∨
    (∃ l, e = .ret n l ∧ t.irq n = (s.irq n).returned l) ∨
    (e = .reset ∧ t.irq n = Irq.reset) := by
  by_cases hi : s.implemented n = true
  · obtain hbus | ⟨x, -, rfl⟩ | ⟨m, rfl, -, rfl⟩ | ⟨m, l, rfl, -, -, rfl⟩ | ⟨rfl, rfl⟩ |
      ⟨v, rfl, -⟩ := deliver_next h
    · exact .inr (.inl hbus)
    · exact .inr (.inr (.inl ⟨x.getLsbD n, by simp [hi]⟩))
    · by_cases hm : n = m
      · subst hm
        exact .inr (.inr (.inr (.inl (by simp [hi]))))
      · exact .inl (by simp [hm])
    · by_cases hm : n = m
      · subst hm
        exact .inr (.inr (.inr (.inr (.inl ⟨l, by simp [hi]⟩))))
      · exact .inl (by simp [hm])
    · exact .inr (.inr (.inr (.inr (.inr (by simp [hi])))))
    · exact .inl rfl
  · exact .inl (deliver_irq_of_not_implemented h (by simpa using hi))

/-! ## A signal last seen HIGH (rule R212) -/

/-- Rule R212 of one interrupt: a signal last seen HIGH makes it active or pending. -/
def Irq.LevelOk (q : Irq) : Prop := q.line = true → q.act = false → q.pend = true

theorem levelInv_iff {s : State} : s.LevelInv ↔ ∀ n, (s.irq n).LevelOk := Iff.rfl

theorem Irq.levelOk_sampled (new : Bool) (q : Irq) : (q.sampled new).LevelOk := by
  intro hline hact
  simp only [Irq.sampled_line, Irq.sampled_act] at hline hact
  simp [Irq.sampled_pend, hline, hact]

theorem Irq.levelOk_entered (q : Irq) : q.entered.LevelOk := by
  intro _ hact
  simp at hact

theorem Irq.levelOk_returned (level : Bool) (q : Irq) : (q.returned level).LevelOk := by
  intro hline _
  simp only [Irq.returned_line] at hline
  simp [hline]

theorem Irq.levelOk_reset : Irq.reset.LevelOk := by
  intro hline
  simp [Irq.reset] at hline

/-- The clear-pending write spares an interrupt whose signal was HIGH (decision D17). -/
theorem Irq.LevelOk.unpended {q : Irq} (h : q.LevelOk) : q.unpended.LevelOk := by
  intro hline hact
  simp only [Irq.unpended_line, Irq.unpended_act] at hline hact
  simp [Irq.unpended_eq, hline, h hline hact]

/-- No write to a register breaks rule R212. -/
theorem Register.Allows.levelOk {r : Register} {q q' : Irq} (h : Register.Allows r q q')
    (hq : q.LevelOk) : q'.LevelOk := by
  obtain rfl | ⟨-, rfl | rfl⟩ | ⟨-, rfl | rfl⟩ | ⟨-, p, rfl⟩ := Register.allows_kinds h
  · exact hq
  · exact hq
  · exact hq
  · exact fun _ _ => rfl
  · exact hq.unpended
  · exact hq

theorem deliver_keeps_levelInv {e : Input} {s t : State} (hs : s.LevelInv)
    (h : deliver e s = .next t) : t.LevelInv := by
  rw [levelInv_iff] at hs ⊢
  intro n
  obtain hn | ⟨_, _, -, -, hx⟩ | ⟨b, hn⟩ | ⟨-, hn⟩ | ⟨l, -, hn⟩ | ⟨-, hn⟩ := deliver_irq h n
  · exact hn ▸ hs n
  · exact ((exec_touched hx).allowed n).levelOk (hs n)
  · exact hn ▸ Irq.levelOk_sampled b _
  · exact hn ▸ Irq.levelOk_entered _
  · exact hn ▸ Irq.levelOk_returned l _
  · exact hn ▸ Irq.levelOk_reset

/-- Settles O47: the events establish rule R212 of the interrupts they change, and every register's
write keeps it. -/
theorem stepKeepsLevelInv : Obligations.StepKeepsLevelInv := by
  intro s t hs h
  obtain ⟨-, rfl⟩ | ⟨e, rest, -, hd⟩ := step_next h
  · exact hs
  · exact deliver_keeps_levelInv (s := { s with inputs := rest }) hs hd

/-! ## What ends the pending state (rule R203) -/

/-- A register whose write clears `PEND` is an ICPR, and the signal was low. -/
theorem Register.Allows.pend_cleared {r : Register} {q q' : Irq} (h : Register.Allows r q q')
    (hq : q.pend = true) (hq' : q'.pend = false) :
    r ∈ [Register.icpr0, .icpr1, .icpr2] ∧ q.line = false := by
  have hkept : ¬ q'.pend = q.pend := by simp [hq, hq']
  cases r
  case icpr0 | icpr1 | icpr2 =>
    obtain rfl | rfl := h
    · exact absurd rfl hkept
    · exact ⟨by decide, by simpa [Irq.unpended_eq, hq] using hq'⟩
  case iser0 | iser1 | iser2 | icer0 | icer1 | icer2 =>
    obtain rfl | rfl := h <;> exact absurd rfl hkept
  case ispr0 | ispr1 | ispr2 | stir =>
    obtain rfl | rfl := h
    · exact absurd rfl hkept
    · exact absurd hq' (by simp [Irq.pended])
  case iabr0 | iabr1 | iabr2 =>
    exact absurd (congrArg Irq.pend h) hkept
  all_goals
    obtain rfl | ⟨p, rfl⟩ := h <;> exact absurd rfl hkept

/-- The write of a clear-pending register is one of `icprWrites`. -/
theorem write_of_clearPendingRegister {r : Register}
    (hr : r ∈ [Register.icpr0, .icpr1, .icpr2]) :
    ∃ c k, (c, k) ∈ Claims.icprWrites ∧ ∀ a d, Instr.write r a d = c a d := by
  simp only [List.mem_cons, List.not_mem_nil, or_false] at hr
  obtain rfl | rfl | rfl := hr
  · exact ⟨.wrIcpr0, 0, by simp [Claims.icprWrites], fun _ _ => rfl⟩
  · exact ⟨.wrIcpr1, 1, by simp [Claims.icprWrites], fun _ _ => rfl⟩
  · exact ⟨.wrIcpr2, 2, by simp [Claims.icprWrites], fun _ _ => rfl⟩

/-- An operation that ends the pending state of `n` writes a 1 to the bit of `n` in ICPR, and the
signal of `n` was low. -/
theorem exec_pend_cleared {i : Instr} {s t : State} {n : Nat} (h : exec i s = .next t)
    (hs : (s.irq n).pend = true) (ht : (t.irq n).pend = false) :
    ∃ c k a d, (c, k) ∈ Claims.icprWrites ∧ i = c a d ∧ n / 32 = k ∧
      d.getLsbD (n % 32) = true ∧ (s.irq n).line = false := by
  have hirq : t.irq n ≠ s.irq n := fun he => by simp [he, hs] at ht
  obtain ⟨hr, hline⟩ := ((exec_touched h).allowed n).pend_cleared hs ht
  obtain ⟨d, hd⟩ := exists_writeData_of_irq_ne h hirq
  obtain ⟨c, k, hc, hwrite⟩ := write_of_clearPendingRegister hr
  have hi : i = c i.access d := (Instr.eq_write hd).trans (hwrite _ _)
  rw [hi, exec_icprWrites hc] at h
  have hsel : selected k d n = true := by
    by_contra hn
    exact hirq (writeBits_irq_of_not_selected h (by simpa using hn))
  obtain ⟨hk, hbit⟩ := selected_iff.mp hsel
  exact ⟨c, k, i.access, d, hc, hi, hk, hbit, hline⟩

/-- Settles O53: no sample and no return clears `PEND`, and an operation that does is the write that
`exec_pend_cleared` finds. -/
theorem pendingEndsOnlyBy : Obligations.PendingEndsOnlyBy := by
  intro s t e rest n hs h hpend hpend'
  rw [step_of_inputs hs] at h
  obtain hn | ⟨x, i, he, hdec, hx⟩ | ⟨b, hn⟩ | ⟨he, -⟩ | ⟨l, -, hn⟩ | ⟨he, -⟩ := deliver_irq h n
  · simp [hn, hpend] at hpend'
  · obtain ⟨c, k, a, d, hc, rfl, hk, hd, hline⟩ := exec_pend_cleared hx hpend hpend'
    exact .inr (.inr ⟨x, c, k, a, d, he, hc, hdec, hk, hd, hline⟩)
  · simp [hn, Irq.sampled_pend, hpend] at hpend'
  · exact .inl he
  · simp [hn, hpend] at hpend'
  · exact .inr (.inl he)

/-! ## The group priorities of the active interrupts (rule R207) -/

/-- An operation that is no privileged write to IPR leaves every priority. -/
theorem exec_pri {i : Instr} {s t : State} (h : exec i s = .next t)
    (hi : Instr.rewritesPriority i = false) (n : Nat) : (t.irq n).pri = (s.irq n).pri := by
  cases hipr : i.register.byteAccessible with
  | false =>
    obtain ⟨-, -, -, -, hpri⟩ := transactionsChangeOnlyTheirBit i s t h n
    exact hpri hipr
  | true =>
    cases hw : i.writeData with
    | none => rw [State.irq, (exec_touched h).reads hw, State.irq]
    | some d =>
      have hpriv : i.access.priv = false := by simpa [Instr.rewritesPriority, hipr, hw] using hi
      have hstir : i.register ≠ .stir := fun hr => by simp [hr, Register.byteAccessible] at hipr
      rw [unprivilegedIsAccessFault i s hstir hpriv] at h
      cases h
      rfl

/-- An interrupt that an input leaves or makes active keeps its priority, if the input rewrites
none. -/
theorem deliver_pri_of_active {e : Input} {s t : State} (h : deliver e s = .next t)
    (he : Input.rewritesPriority e = false) {n : Nat} (hact : (t.irq n).act = true) :
    (t.irq n).pri = (s.irq n).pri := by
  obtain hn | ⟨x, i, rfl, hdec, hx⟩ | ⟨b, hn⟩ | ⟨-, hn⟩ | ⟨l, -, hn⟩ | ⟨-, hn⟩ := deliver_irq h n
  · rw [hn]
  · exact exec_pri hx (by simpa [Input.rewritesPriority, hdec] using he) n
  · rw [hn, Irq.sampled_pri]
  · rw [hn, Irq.entered_pri]
  · rw [hn, Irq.returned_pri]
  · simp [hn] at hact

/-- No input but the setting of PRIGROUP changes it. -/
theorem deliver_priGroup {e : Input} {s t : State} (h : deliver e s = .next t)
    (he : Input.rewritesPriority e = false) : t.env.priGroup = s.env.priGroup := by
  obtain ⟨_, _, -, -, hx⟩ | ⟨_, -, rfl⟩ | ⟨_, -, -, rfl⟩ | ⟨_, _, -, -, -, rfl⟩ | ⟨-, rfl⟩ |
    ⟨_, rfl, hv⟩ := deliver_next h
  · rw [(exec_touched hx).env]
  · rfl
  · rfl
  · rfl
  · rfl
  · refine hv fun g hg => ?_
    subst hg
    cases he

theorem deliver_group_of_active {e : Input} {s t : State} (h : deliver e s = .next t)
    (he : Input.rewritesPriority e = false) {n : Nat} (hact : (t.irq n).act = true) :
    t.group n = s.group n := by
  rw [State.group, deliver_priGroup h he, deliver_pri_of_active h he hact, State.group]

/-- An interrupt is active because it was, or because the input is its entry. -/
theorem active_of_deliver {e : Input} {s t : State} (h : deliver e s = .next t) {n : Nat}
    (hact : (t.irq n).act = true) :
    (s.irq n).act = true ∨ (e = .entry n ∧ s.mayEnter n = true) := by
  obtain hk | ⟨rfl, -⟩ | ⟨-, hn⟩ := deliver_act h n
  · exact .inl (hk ▸ hact)
  · exact .inr ⟨rfl, (enter_next h).1⟩
  · simp [hn] at hact

/-- An interrupt that may be entered is of another group priority than every active one. -/
theorem group_ne_of_mayEnter {s : State} {n m : Nat} (h : s.mayEnter n = true)
    (hi : s.implemented m = true) (ha : (s.irq m).act = true) : s.group n ≠ s.group m := by
  obtain ⟨-, hpreempts, -⟩ := mayEnter_iff.mp h
  exact BitVec.ne_of_lt (hpreempts m hi ha)

/-- An input that rewrites no priority keeps the group priorities of the active interrupts
different: it enters at most one interrupt, which preempts them all. -/
theorem deliver_keeps_activeGroupsDistinct {e : Input} {s t : State}
    (h : deliver e s = .next t) (he : Input.rewritesPriority e = false)
    (hs : s.ActiveGroupsDistinct) : t.ActiveGroupsDistinct := by
  intro a b hia hib haa hab hne
  simp only [State.implemented, deliver_cfg h] at hia hib
  rw [deliver_group_of_active h he haa, deliver_group_of_active h he hab]
  obtain ha | ⟨ha, hma⟩ := active_of_deliver h haa <;>
    obtain hb | ⟨hb, hmb⟩ := active_of_deliver h hab
  · exact hs a b hia hib ha hb hne
  · exact (group_ne_of_mayEnter hmb hia ha).symm
  · exact group_ne_of_mayEnter hma hib hb
  · exact absurd (Input.entry.inj (ha.symm.trans hb)) hne

/-- A rewriting input makes no interrupt active. -/
theorem active_of_deliver_rewriting {e : Input} {s t : State} (h : deliver e s = .next t)
    (he : Input.rewritesPriority e = true) {n : Nat} (hact : (t.irq n).act = true) :
    (s.irq n).act = true := by
  obtain hs | ⟨rfl, -⟩ := active_of_deliver h hact
  · exact hs
  · cases he

/-- Settles O49: a rewriting input finds, and leaves, no interrupt active; every other input keeps
the group priorities of the active ones. -/
theorem stepKeepsActiveGroupsDistinct : Obligations.StepKeepsActiveGroupsDistinct := by
  intro s t e rest hs hrewrite hdistinct h
  rw [step_of_inputs hs] at h
  cases he : Input.rewritesPriority e with
  | false =>
    exact deliver_keeps_activeGroupsDistinct (s := { s with inputs := rest }) h he hdistinct
  | true =>
    intro a b hia _ haa
    rw [State.implemented_iff, deliver_cfg h] at hia
    have hact := active_of_deliver_rewriting h he haa
    rw [State.with_inputs_irq, hrewrite he a hia] at hact
    cases hact

/-- Settles O50: the active interrupts inject into the 16 group priorities. -/
theorem atMostSixteenActive : Obligations.AtMostSixteenActive := by
  intro s hs
  have hnodup : (((List.range 81).filter fun n => s.implemented n && (s.irq n).act).map
      fun n => (s.group n).toFin).Nodup := by
    refine (List.nodup_range.filter _).map_on fun a ha b hb hab => ?_
    simp only [List.mem_filter, Bool.and_eq_true] at ha hb
    obtain ⟨-, hia, haa⟩ := ha
    obtain ⟨-, hib, hab'⟩ := hb
    by_contra hne
    exact hs a b hia hib haa hab' hne (BitVec.toFin_inj.mp hab)
  have hcard := hnodup.length_le_card
  rwa [List.length_map, Fintype.card_fin] at hcard

/-- Settles O51: after reset every interrupt is `Irq.reset`, with no signal seen HIGH and not
active. -/
theorem resetMeetsInvariants : Obligations.ResetMeetsInvariants := by
  refine ⟨fun n => ?_, fun n _ => State.reset_irq n, fun a b _ _ hact => ?_⟩
  · rw [State.reset_irq]
    exact Irq.levelOk_reset
  · simp at hact

end Sys2Proof.Machine
end

section
/-! PROOF. Lives of an interrupt (60_exceptions.md rules R210 and R211): a level held over the ISR,
and pulses during it. -/

namespace Sys2Proof.Machine

/-! ## A held level (rule R210) -/

/-- A second sample of the same level changes nothing. -/
theorem Irq.sampled_sampled (b : Bool) (q : Irq) : (q.sampled b).sampled b = q.sampled b := by
  cases b <;> simp [Irq.sampled]

/-- An interrupt whose signal stays HIGH comes out of its ISR as it went in. -/
theorem Irq.returned_of_held {q : Irq} (h : q.act = false) :
    ((q.sampled true).entered.sampled true).returned true = q.sampled true := by
  simp [Irq.returned, Irq.sampled, Irq.entered, h]

/-- The state in the ISR of `n` that a sample of `x` led to, after a second sample of `x`. -/
def State.heldIsr (s : State) (n : Nat) (x : Signals) : State :=
  ((s.sampleSignals x).enterIsr n).sampleSignals x

theorem deliverAll_heldIsr {s : State} {n : Nat} {x : Signals}
    (h : (s.sampleSignals x).mayEnter n = true) :
    deliverAll [.sample x, .entry n, .sample x] s = .next (s.heldIsr n x) := by
  simp only [deliverAll, deliver, enter_of_mayEnter h, State.heldIsr]

theorem heldIsr_irq {s : State} {n : Nat} {x : Signals} (hi : s.implemented n = true)
    (hx : x.getLsbD n = true) :
    (s.heldIsr n x).irq n = ((s.irq n).sampled true).entered.sampled true := by
  simp [State.heldIsr, hi, hx]

/-- The return from that ISR with the signal HIGH leaves the interrupts as the first sample did. -/
theorem heldIsr_return_irqs {s : State} {n : Nat} {x : Signals} (hact : (s.irq n).act = false)
    (hx : x.getLsbD n = true) :
    ((s.heldIsr n x).returnFromIsr n true).irqs = (s.sampleSignals x).irqs := by
  refine State.irqs_ext fun m _ => ?_
  by_cases hi : s.implemented m = true
  · by_cases hm : m = n
    · subst hm
      simp [State.heldIsr, hi, hx, Irq.returned_of_held hact]
    · simp [State.heldIsr, hi, hm, Irq.sampled_sampled]
  · simp [State.heldIsr, hi]

/-- Settles O55: the life leaves the interrupts of the first sample, and with them `may_enter`. -/
theorem heldLevelIsServicedAgain : Obligations.HeldLevelIsServicedAgain := by
  intro s n x hn hact hx hmay
  have hi : s.implemented n = true := State.implemented_iff.mpr hn
  have ht := heldIsr_irq hi hx
  have hirqs := heldIsr_return_irqs hact hx
  have hu : ((s.heldIsr n x).returnFromIsr n true).irq n = (s.irq n).sampled true := by
    rw [State.irq, hirqs, ← State.irq, State.irq_sampleSignals, if_pos hi, hx]
  have hret := leave_of_active (s := s.heldIsr n x) hi (by rw [ht]; rfl) true
  have hagain : ((s.heldIsr n x).returnFromIsr n true).mayEnter n = (s.sampleSignals x).mayEnter n :=
    mayEnter_congr rfl hirqs rfl
  refine ⟨_, _, deliverAll_heldIsr hmay, ?_, ?_, ?_, hret, ?_, ?_, hagain.trans hmay⟩
  · rw [ht]; rfl
  · rw [ht]; rfl
  · rw [ht]; rfl
  · rw [hu, Irq.sampled_true_pend (.inl hact)]
  · rw [hu, Irq.sampled_act, hact]

/-! ## Pulses during an ISR (rule R211) -/

/-- A script that begins with samples makes them first. -/
theorem deliverAll_samples_append (xs : List Signals) (es : List Input) (s : State) :
    deliverAll (xs.map Input.sample ++ es) s = deliverAll es (xs.foldl State.sampleSignals s) := by
  induction xs generalizing s with
  | nil => rfl
  | cons x xs ih => exact ih (s.sampleSignals x)

/-- While the interrupt is active and its remembered HIGH signal is pending, a HIGH sample pends it
and a LOW one does nothing. -/
theorem Irq.sampled_pend_of_active {q : Irq} {b : Bool} (hact : q.act = true)
    (hline : q.line = true → q.pend = true) : (q.sampled b).pend = (q.pend || b) := by
  cases hl : q.line with
  | false => simp [Irq.sampled_pend, hl, hact]
  | true => simp [Irq.sampled_pend, hl, hact, hline hl]

/-- During an ISR whose remembered HIGH signal is pending, every HIGH sample leaves the interrupt
pending, and no other one does. -/
theorem foldl_sampleSignals_of_active {n : Nat} (xs : List Signals) {s : State}
    (hi : s.implemented n = true) (hact : (s.irq n).act = true)
    (hline : (s.irq n).line = true → (s.irq n).pend = true) :
    (xs.foldl State.sampleSignals s).implemented n = true ∧
      ((xs.foldl State.sampleSignals s).irq n).act = true ∧
      (((xs.foldl State.sampleSignals s).irq n).pend = true ↔
        (s.irq n).pend = true ∨ ∃ x ∈ xs, x.getLsbD n = true) := by
  induction xs generalizing s with
  | nil => simp [hi, hact]
  | cons x xs ih =>
    have hirq : (s.sampleSignals x).irq n = (s.irq n).sampled (x.getLsbD n) := by simp [hi]
    have hpend : ((s.sampleSignals x).irq n).pend = ((s.irq n).pend || x.getLsbD n) := by
      rw [hirq, Irq.sampled_pend_of_active hact hline]
    obtain ⟨himpl, hact', hiff⟩ := ih (s := s.sampleSignals x) hi (by rw [hirq]; exact hact)
      (by rw [hpend, hirq, Irq.sampled_line]; exact Bool.or_eq_true_iff.mpr ∘ .inr)
    refine ⟨himpl, hact', hiff.trans ?_⟩
    simp only [hpend, Bool.or_eq_true, List.mem_cons, exists_eq_or_imp, or_assoc]

/-- Settles O56: the samples leave one request if any was HIGH, and the return with the signal low
adds none. -/
theorem pulsesDuringIsrLeaveOneRequest : Obligations.PulsesDuringIsrLeaveOneRequest := by
  intro s n xs hn hact hpend hline
  obtain ⟨hi, hact', hiff⟩ := foldl_sampleSignals_of_active xs (State.implemented_iff.mpr hn) hact
    (by simp [hline])
  refine ⟨(xs.foldl State.sampleSignals s).returnFromIsr n false, ?_, ?_, ?_, ?_⟩
  · rw [deliverAll_samples_append]
    simp [deliverAll, deliver, leave_of_active hi hact']
  · simp [hi]
  · simp [hi]
  · simpa [hi, hpend] using hiff

end Sys2Proof.Machine
end

section
/-! PROOF. Reset (70_reset_and_hazards.md rule R250): every implemented interrupt is `Irq.reset`
after the event, so that nothing is requested and every register that shows interrupts shows zeros
(10_state.md rule R49). -/

namespace Sys2Proof.Machine

/-! ## The reads of the readable registers -/

/-- The components that a register with one bit for each interrupt can show (rules R131, R141 and
R150). -/
def Irq.ShownBit (show1 : Irq → Bool) : Prop := show1 = Irq.en ∨ show1 = Irq.pend ∨ show1 = Irq.act

theorem Irq.ShownBit.reset {show1 : Irq → Bool} (h : Irq.ShownBit show1) :
    show1 Irq.reset = false := by
  obtain rfl | rfl | rfl := h <;> rfl

/-- The read of a readable register is a read of one bit of each interrupt, or, where the register is
byte-accessible, of priority fields (30_encoding.md rules R102, R103). -/
theorem exec_read_cases {r : Register} (hr : r ≠ .stir) (a : Access) :
    (r.byteAccessible = false ∧ ∃ k show1, Irq.ShownBit show1 ∧
      ∀ s, exec (Instr.read r a) s = readBits k show1 a s) ∨
    (r.byteAccessible = true ∧ ∃ m, ∀ s, exec (Instr.read r a) s = readPriority m a s) := by
  cases r with
  | iser0 | iser1 | iser2 | icer0 | icer1 | icer2 =>
    exact .inl ⟨rfl, _, Irq.en, .inl rfl, fun _ => rfl⟩
  | ispr0 | ispr1 | ispr2 | icpr0 | icpr1 | icpr2 =>
    exact .inl ⟨rfl, _, Irq.pend, .inr (.inl rfl), fun _ => rfl⟩
  | iabr0 | iabr1 | iabr2 => exact .inl ⟨rfl, _, Irq.act, .inr (.inr rfl), fun _ => rfl⟩
  | ipr0 | ipr1 | ipr2 | ipr3 | ipr4 | ipr5 | ipr6 | ipr7 | ipr8 | ipr9 | ipr10 | ipr11 | ipr12
  | ipr13 | ipr14 | ipr15 | ipr16 | ipr17 | ipr18 | ipr19 | ipr20 =>
    exact .inr ⟨rfl, _, fun _ => rfl⟩
  | stir => exact absurd rfl hr

/-- A privileged operation in the format of a register with one bit for each interrupt. -/
theorem privWord_of_formatOk {i : Instr} (hb : i.register.byteAccessible = false)
    (hpriv : i.access.priv = true) (hf : i.formatOk = true) : Claims.PrivWord i.access := by
  rw [← formatOf_eq_none, formatOf, hb] at hf
  exact ⟨hpriv, wordFormat_eq_none.mp hf⟩

/-- A privileged operation in the format of a priority register. -/
theorem privLanes_of_formatOk {i : Instr} (hb : i.register.byteAccessible = true)
    (hpriv : i.access.priv = true) (hf : i.formatOk = true) : Claims.PrivLanes i.access := by
  rw [← formatOf_eq_none, formatOf, hb] at hf
  exact ⟨hpriv, lanesFormat_eq_none.mp hf⟩

/-! ## A machine whose interrupts are all reset -/

/-- Every implemented interrupt is as rule R49 gives it. -/
def State.AllReset (s : State) : Prop := ∀ n, n < s.cfg.numIrq → s.irq n = Irq.reset

theorem State.allReset_resetIrqs (s : State) : s.resetIrqs.AllReset := by
  intro n hn
  have himpl : s.implemented n = true := State.implemented_iff.mpr hn
  rw [State.irq_resetIrqs, if_pos himpl]

/-- No interrupt is enabled, so none is a candidate. -/
theorem State.AllReset.request_eq_none {s : State} (h : s.AllReset) : s.request = none := by
  refine Machine.request_eq_none.mpr fun n => ?_
  rw [Bool.eq_false_iff, ne_eq, State.candidate_iff]
  rintro ⟨hn, hen, -⟩
  simp [h n hn, Irq.reset] at hen

/-- A register with one bit for each interrupt reads zero. -/
theorem State.AllReset.readBits_eq_zero {s : State} (h : s.AllReset) {a : Access}
    (ha : Claims.PrivWord a) {show1 : Irq → Bool} (hshow : Irq.ShownBit show1) (k : Nat) :
    readBits k show1 a s = .next { s with answer := some (.data a.size 0) } := by
  obtain ⟨v, hread, hbit⟩ := readBits_of_privWord ha k show1 s
  have hzero : v = 0 := by
    apply BitVec.eq_of_getLsbD_eq
    intro i hi
    rw [hbit i hi]
    by_cases hn : 32 * k + i < s.cfg.numIrq
    · simp [h _ hn, hshow.reset]
    · simp [hn]
  obtain ⟨-, hsize, -⟩ := ha
  rw [hread, hzero, hsize]

/-- A priority register reads zero. -/
theorem State.AllReset.readPriority_eq_zero {s : State} (h : s.AllReset) {a : Access}
    (ha : Claims.PrivLanes a) (m : Nat) :
    readPriority m a s = .next { s with answer := some (.data a.size 0) } := by
  obtain ⟨v, hread, hbyte⟩ := readPriority_of_privLanes ha m s
  have hzero : v = 0 := by
    refine word_eq_of_bytes fun j hj => ?_
    rw [hbyte j hj]
    split
    next hn => simp [h _ hn.2, Irq.reset]
    next => simp
  rw [hread, hzero]

/-- Every privileged read of a readable register in its format answers zero. -/
theorem State.AllReset.exec_read {s : State} (h : s.AllReset) {i : Instr}
    (hread : i.writeData = none) (hr : i.register ≠ .stir) (hpriv : i.access.priv = true)
    (hf : i.formatOk = true) :
    exec i s = .next { s with answer := some (.data i.access.size 0) } := by
  have hcases := exec_read_cases hr i.access
  rw [← Instr.eq_read hread] at hcases
  obtain ⟨hb, k, show1, hshow, hexec⟩ | ⟨hb, m, hexec⟩ := hcases
  · rw [hexec]
    exact h.readBits_eq_zero (privWord_of_formatOk hb hpriv hf) hshow k
  · rw [hexec]
    exact h.readPriority_eq_zero (privLanes_of_formatOk hb hpriv hf) m

/-! ## The event -/

/-- Settles O37: the event leaves every implemented interrupt reset, which decides the request and
the reads. -/
theorem resetEvent : Obligations.ResetEvent := by
  intro s rest hs
  rw [step_of_inputs hs]
  have hreset := State.allReset_resetIrqs { s with inputs := rest }
  exact ⟨_, rfl, ⟨⟨rfl, rfl, rfl, rfl⟩, rfl⟩, hreset, hreset.request_eq_none,
    fun _ hread hr hpriv hf => hreset.exec_read hread hr hpriv hf⟩

end Sys2Proof.Machine
end
